-- ==== Sys2Proof/Word.lean ====
section
/-! DEFINITION. The word types of the block: registers and addresses are 32 bits wide (R9), bytes 8, a
register field of an instruction 4. -/

namespace Sys2Proof

/-- A 32-bit register value, address or instruction word (R9, R150). -/
abbrev Word := BitVec 32

/-- One byte of memory. -/
abbrev Byte := BitVec 8

/-- A register-number field of an instruction (R18: Rd, Rn, Rm, Rs, RdHi, RdLo); 15 names the program
counter proxy. -/
abbrev RegNo := BitVec 4

end Sys2Proof
end

