-- ==== Sys2Proof/Config.lean ====
section
/-! DEFINITION. What an implementation fixes: the types of the parameters of R10 (their values stand in
State, so that a statement covers every value of every parameter), and the free values of the spec, opaque
constants that nothing can evaluate. -/

namespace Sys2Proof

/-- `VARIANT` of a CPU (R2, R3): the ARM7 instance is `v4` (ARMv4T), the ARM9 instance `v5` (ARMv5TE). -/
inductive Variant where
  | v4
  | v5
deriving DecidableEq, Repr

namespace Config

/-- `ENDIAN` of a CPU (R110). -/
inductive Endian where
  | little
  | big
deriving DecidableEq, Repr

/-- `EXC_MODEL` (R630, R640): exceptions refused (the default) or entered. -/
inductive ExcModel where
  | unsupported
  | architectural
deriving DecidableEq, Repr

/-- `NV_V4` (R602): what `cond = 1111` does on `v4`. -/
inductive NvV4 where
  | fault
  | never
deriving DecidableEq, Repr

/-- `MISALIGNED_PC` (R240): what an unaligned target of the program counter does. -/
inductive MisalignedPc where
  | fault
  | align
deriving DecidableEq, Repr

/-- `HIGH_ADDR` (R108): what an address beyond the bus's address space does. -/
inductive HighAddr where
  | fault
  | wrap
deriving DecidableEq, Repr

/-- `SCHEDULE` (R130): the Clock's own order, or every interleaving of whole steps. -/
inductive Schedule where
  | clock
  | any
deriving DecidableEq, Repr

/-- `VECTOR_BASE` of a CPU (R641): 0x00000000 or 0xFFFF0000. -/
inductive VectorBase where
  | low
  | high
deriving DecidableEq, Repr

/-- One line of `INSN_CYCLES` (R250): a word `w` with `w AND mask = value` costs `cycles`. -/
structure CycleRule where
  mask : Word
  value : Word
  cycles : Nat
deriving DecidableEq, Repr

/-- The parameters of R10 that the spec does not give per CPU or per bus (log 25). -/
structure Params where
  resetCpsr : Word
  excModel : ExcModel
  nvV4 : NvV4
  misalignedPc : MisalignedPc
  highAddr : HighAddr
  schedule : Schedule
  ticksPerFrame : Nat
  insnCycles : List CycleRule
deriving DecidableEq, Repr

/-- The defaults of R10; `TICKS_PER_FRAME` is OPEN there and 10 is the value of the example R732
(DESIGN CHOICE, log 3). -/
def defaultParams : Params where
  resetCpsr := 0#32
  excModel := .unsupported
  nvV4 := .fault
  misalignedPc := .fault
  highAddr := .fault
  schedule := .clock
  ticksPerFrame := 10
  insnCycles := []

/-! ### Free values

Each is applied to the counter `State.draws`, which the step advances, so that two draws are never the same
value by construction (log 6, 7, 18, 19). -/

/-- The `draw` of R352: the C flag (and V for the long forms) of a `v4` multiply with S = 1. -/
opaque freeFlag : Nat → Bool

/-- What delegate `dev` answers a word read of address `a` (R106: "answers of an oracle"). -/
opaque delegateAnswer (dev : Nat) (n : Nat) (a : Word) : Word

/-- Which CPU steps next under `SCHEDULE = any` when both can (R130): true for the ARM9. -/
opaque scheduleChoice : Nat → Bool

/-- The tick that a master which is not a CPU reaches when asked for `t`, but for the progress that R673 says a
model must assume (`deviceTick`). -/
opaque deviceReach (name : Nat) (n : Nat) (t : Int) : Int

end Config

end Sys2Proof
end

