-- ==== Sys2Proof/Syntax.lean ====
section
/-! DEFINITION. The instructions of the block: one constructor per row of spec/opcode_table.json, with the
row's fields as arguments. SBZ and SBO bits are no arguments (R154), but for the fields the table names.
`c` is the condition field of the conditional space (R151). Rows that stand for UNDEFINED, UNPREDICTABLE or
NV words keep the whole word. -/

namespace Sys2Proof

/-- The fifteen conditions of R232 (0b1111 is the unconditional space, R151). -/
inductive Cond where
  | eq | ne | cs | cc | mi | pl | vs | vc | hi | ls | ge | lt | gt | le | al
deriving DecidableEq, Repr

/-- The field `shift` of F2, F3 and F9 (R171). -/
inductive Shift where
  | lsl | lsr | asr | ror
deriving DecidableEq, Repr

/-- Which half of a register a DSP multiply takes (R360): the fields x and y of F19. -/
inductive Half where
  | bottom | top
deriving DecidableEq, Repr

/-- The field R of F14 to F16 (R178). -/
inductive Psr where
  | cpsr | spsr
deriving DecidableEq, Repr

/-- The rotated immediate of F1 and F15 (R190). -/
structure ImmOp where
  rotate : BitVec 4
  imm8 : BitVec 8
deriving DecidableEq, Repr

/-- A register shifted by an immediate: bits 11:0 of F2 and F9 (R171, R175). -/
structure ShiftImmOp where
  amount : BitVec 5
  shift : Shift
  rm : RegNo
deriving DecidableEq, Repr

/-- A register shifted by a register: bits 11:0 of F3 (R171). -/
structure ShiftRegOp where
  rs : RegNo
  shift : Shift
  rm : RegNo
deriving DecidableEq, Repr

/-- The instructions. `sf` is the S bit, `p`, `u`, `w`, `n` the bits P, U, W, N of the formats. -/
inductive Instr where
  -- data processing, F1, F2, F3 (R171, R310 to R325)
  | andImm (c : Cond) (sf : Bool) (rn rd : RegNo) (o : ImmOp)
  | andImmShift (c : Cond) (sf : Bool) (rn rd : RegNo) (o : ShiftImmOp)
  | andRegShift (c : Cond) (sf : Bool) (rn rd : RegNo) (o : ShiftRegOp)
  | eorImm (c : Cond) (sf : Bool) (rn rd : RegNo) (o : ImmOp)
  | eorImmShift (c : Cond) (sf : Bool) (rn rd : RegNo) (o : ShiftImmOp)
  | eorRegShift (c : Cond) (sf : Bool) (rn rd : RegNo) (o : ShiftRegOp)
  | subImm (c : Cond) (sf : Bool) (rn rd : RegNo) (o : ImmOp)
  | subImmShift (c : Cond) (sf : Bool) (rn rd : RegNo) (o : ShiftImmOp)
  | subRegShift (c : Cond) (sf : Bool) (rn rd : RegNo) (o : ShiftRegOp)
  | rsbImm (c : Cond) (sf : Bool) (rn rd : RegNo) (o : ImmOp)
  | rsbImmShift (c : Cond) (sf : Bool) (rn rd : RegNo) (o : ShiftImmOp)
  | rsbRegShift (c : Cond) (sf : Bool) (rn rd : RegNo) (o : ShiftRegOp)
  | addImm (c : Cond) (sf : Bool) (rn rd : RegNo) (o : ImmOp)
  | addImmShift (c : Cond) (sf : Bool) (rn rd : RegNo) (o : ShiftImmOp)
  | addRegShift (c : Cond) (sf : Bool) (rn rd : RegNo) (o : ShiftRegOp)
  | adcImm (c : Cond) (sf : Bool) (rn rd : RegNo) (o : ImmOp)
  | adcImmShift (c : Cond) (sf : Bool) (rn rd : RegNo) (o : ShiftImmOp)
  | adcRegShift (c : Cond) (sf : Bool) (rn rd : RegNo) (o : ShiftRegOp)
  | sbcImm (c : Cond) (sf : Bool) (rn rd : RegNo) (o : ImmOp)
  | sbcImmShift (c : Cond) (sf : Bool) (rn rd : RegNo) (o : ShiftImmOp)
  | sbcRegShift (c : Cond) (sf : Bool) (rn rd : RegNo) (o : ShiftRegOp)
  | rscImm (c : Cond) (sf : Bool) (rn rd : RegNo) (o : ImmOp)
  | rscImmShift (c : Cond) (sf : Bool) (rn rd : RegNo) (o : ShiftImmOp)
  | rscRegShift (c : Cond) (sf : Bool) (rn rd : RegNo) (o : ShiftRegOp)
  | tstImm (c : Cond) (rn rd : RegNo) (o : ImmOp)
  | tstImmShift (c : Cond) (rn rd : RegNo) (o : ShiftImmOp)
  | tstRegShift (c : Cond) (rn rd : RegNo) (o : ShiftRegOp)
  | teqImm (c : Cond) (rn rd : RegNo) (o : ImmOp)
  | teqImmShift (c : Cond) (rn rd : RegNo) (o : ShiftImmOp)
  | teqRegShift (c : Cond) (rn rd : RegNo) (o : ShiftRegOp)
  | cmpImm (c : Cond) (rn rd : RegNo) (o : ImmOp)
  | cmpImmShift (c : Cond) (rn rd : RegNo) (o : ShiftImmOp)
  | cmpRegShift (c : Cond) (rn rd : RegNo) (o : ShiftRegOp)
  | cmnImm (c : Cond) (rn rd : RegNo) (o : ImmOp)
  | cmnImmShift (c : Cond) (rn rd : RegNo) (o : ShiftImmOp)
  | cmnRegShift (c : Cond) (rn rd : RegNo) (o : ShiftRegOp)
  | orrImm (c : Cond) (sf : Bool) (rn rd : RegNo) (o : ImmOp)
  | orrImmShift (c : Cond) (sf : Bool) (rn rd : RegNo) (o : ShiftImmOp)
  | orrRegShift (c : Cond) (sf : Bool) (rn rd : RegNo) (o : ShiftRegOp)
  | movImm (c : Cond) (sf : Bool) (rn rd : RegNo) (o : ImmOp)
  | movImmShift (c : Cond) (sf : Bool) (rn rd : RegNo) (o : ShiftImmOp)
  | movRegShift (c : Cond) (sf : Bool) (rn rd : RegNo) (o : ShiftRegOp)
  | bicImm (c : Cond) (sf : Bool) (rn rd : RegNo) (o : ImmOp)
  | bicImmShift (c : Cond) (sf : Bool) (rn rd : RegNo) (o : ShiftImmOp)
  | bicRegShift (c : Cond) (sf : Bool) (rn rd : RegNo) (o : ShiftRegOp)
  | mvnImm (c : Cond) (sf : Bool) (rn rd : RegNo) (o : ImmOp)
  | mvnImmShift (c : Cond) (sf : Bool) (rn rd : RegNo) (o : ShiftImmOp)
  | mvnRegShift (c : Cond) (sf : Bool) (rn rd : RegNo) (o : ShiftRegOp)
  -- multiply, F4, F5, F19 (R172, R179, R351 to R365)
  | mul (c : Cond) (sf : Bool) (rd rs rm : RegNo)
  | mla (c : Cond) (sf : Bool) (rd rn rs rm : RegNo)
  | umull (c : Cond) (sf : Bool) (hi lo rs rm : RegNo)
  | umlal (c : Cond) (sf : Bool) (hi lo rs rm : RegNo)
  | smull (c : Cond) (sf : Bool) (hi lo rs rm : RegNo)
  | smlal (c : Cond) (sf : Bool) (hi lo rs rm : RegNo)
  | smlaxy (c : Cond) (rd rn rs : RegNo) (y x : Half) (rm : RegNo)
  | smlawy (c : Cond) (rd rn rs : RegNo) (y : Half) (rm : RegNo)
  | smulwy (c : Cond) (rd rs : RegNo) (y : Half) (rm : RegNo)
  | smlalxy (c : Cond) (hi lo rs : RegNo) (y x : Half) (rm : RegNo)
  | smulxy (c : Cond) (rd rs : RegNo) (y x : Half) (rm : RegNo)
  -- swap, F6 (R173, R450, R451)
  | swp (c : Cond) (rn rd rm : RegNo)
  | swpb (c : Cond) (rn rd rm : RegNo)
  -- halfword, signed and doubleword transfers, F7 (R174, R425 to R428, R441, R442)
  | strhImm (c : Cond) (p u w : Bool) (rn rd : RegNo) (off : BitVec 8)
  | strhReg (c : Cond) (p u w : Bool) (rn rd rm : RegNo)
  | ldrhImm (c : Cond) (p u w : Bool) (rn rd : RegNo) (off : BitVec 8)
  | ldrhReg (c : Cond) (p u w : Bool) (rn rd rm : RegNo)
  | ldrsbImm (c : Cond) (p u w : Bool) (rn rd : RegNo) (off : BitVec 8)
  | ldrsbReg (c : Cond) (p u w : Bool) (rn rd rm : RegNo)
  | ldrshImm (c : Cond) (p u w : Bool) (rn rd : RegNo) (off : BitVec 8)
  | ldrshReg (c : Cond) (p u w : Bool) (rn rd rm : RegNo)
  | ldrdImm (c : Cond) (p u w : Bool) (rn rd : RegNo) (off : BitVec 8)
  | ldrdReg (c : Cond) (p u w : Bool) (rn rd rm : RegNo)
  | strdImm (c : Cond) (p u w : Bool) (rn rd : RegNo) (off : BitVec 8)
  | strdReg (c : Cond) (p u w : Bool) (rn rd rm : RegNo)
  -- the v4 holes of the extra load/store space: word[6:5] = 10 and 11 (R456)
  | unpredLsx10 (word : Word)
  | unpredLsx11 (word : Word)
  -- word and unsigned-byte transfers, F8 and F9 (R175, R410 to R417): P = 1, then P = 0
  | ldrImm (c : Cond) (u w : Bool) (rn rd : RegNo) (off : BitVec 12)
  | ldrImmPost (c : Cond) (u : Bool) (rn rd : RegNo) (off : BitVec 12)
  | ldrReg (c : Cond) (u w : Bool) (rn rd : RegNo) (o : ShiftImmOp)
  | ldrRegPost (c : Cond) (u : Bool) (rn rd : RegNo) (o : ShiftImmOp)
  | ldrtImm (c : Cond) (u : Bool) (rn rd : RegNo) (off : BitVec 12)
  | ldrtReg (c : Cond) (u : Bool) (rn rd : RegNo) (o : ShiftImmOp)
  | ldrbImm (c : Cond) (u w : Bool) (rn rd : RegNo) (off : BitVec 12)
  | ldrbImmPost (c : Cond) (u : Bool) (rn rd : RegNo) (off : BitVec 12)
  | ldrbReg (c : Cond) (u w : Bool) (rn rd : RegNo) (o : ShiftImmOp)
  | ldrbRegPost (c : Cond) (u : Bool) (rn rd : RegNo) (o : ShiftImmOp)
  | ldrbtImm (c : Cond) (u : Bool) (rn rd : RegNo) (off : BitVec 12)
  | ldrbtReg (c : Cond) (u : Bool) (rn rd : RegNo) (o : ShiftImmOp)
  | strImm (c : Cond) (u w : Bool) (rn rd : RegNo) (off : BitVec 12)
  | strImmPost (c : Cond) (u : Bool) (rn rd : RegNo) (off : BitVec 12)
  | strReg (c : Cond) (u w : Bool) (rn rd : RegNo) (o : ShiftImmOp)
  | strRegPost (c : Cond) (u : Bool) (rn rd : RegNo) (o : ShiftImmOp)
  | strtImm (c : Cond) (u : Bool) (rn rd : RegNo) (off : BitVec 12)
  | strtReg (c : Cond) (u : Bool) (rn rd : RegNo) (o : ShiftImmOp)
  | strbImm (c : Cond) (u w : Bool) (rn rd : RegNo) (off : BitVec 12)
  | strbImmPost (c : Cond) (u : Bool) (rn rd : RegNo) (off : BitVec 12)
  | strbReg (c : Cond) (u w : Bool) (rn rd : RegNo) (o : ShiftImmOp)
  | strbRegPost (c : Cond) (u : Bool) (rn rd : RegNo) (o : ShiftImmOp)
  | strbtImm (c : Cond) (u : Bool) (rn rd : RegNo) (off : BitVec 12)
  | strbtReg (c : Cond) (u : Bool) (rn rd : RegNo) (o : ShiftImmOp)
  -- preload, F26 (R181, R455)
  | pldImm (u : Bool) (rn : RegNo) (off : BitVec 12)
  | pldReg (u : Bool) (rn : RegNo) (o : ShiftImmOp)
  -- block transfer, F10 (R176, R473 to R479); `list` of the S = 1 loads without bit 15
  | ldm (c : Cond) (p u w : Bool) (rn : RegNo) (list : BitVec 16)
  | ldmUser (c : Cond) (p u w : Bool) (rn : RegNo) (list : BitVec 15)
  | ldmReturn (c : Cond) (p u w : Bool) (rn : RegNo) (list : BitVec 15)
  | stm (c : Cond) (p u w : Bool) (rn : RegNo) (list : BitVec 16)
  | stmUser (c : Cond) (p u w : Bool) (rn : RegNo) (list : BitVec 16)
  -- branch, F11, F12, F13 (R177, R500 to R504)
  | b (c : Cond) (imm : BitVec 24)
  | bl (c : Cond) (imm : BitVec 24)
  | bx (c : Cond) (rm : RegNo)
  | blxImm (h : Bool) (imm : BitVec 24)
  | blxReg (c : Cond) (rm : RegNo)
  -- status register, F14, F15, F16 (R178, R530 to R533)
  | mrs (c : Cond) (r : Psr) (rd : RegNo)
  | msrImm (c : Cond) (r : Psr) (mask : BitVec 4) (o : ImmOp)
  | msrReg (c : Cond) (r : Psr) (mask : BitVec 4) (rm : RegNo)
  -- CLZ and saturating arithmetic, F17, F18 (R179, R560 to R565)
  | clz (c : Cond) (rd rm : RegNo)
  | qadd (c : Cond) (rn rd rm : RegNo)
  | qsub (c : Cond) (rn rd rm : RegNo)
  | qdadd (c : Cond) (rn rd rm : RegNo)
  | qdsub (c : Cond) (rn rd rm : RegNo)
  -- exception-generating, F20, F21 (R179, R180, R590, R591)
  | bkpt (c : Cond) (immHi : BitVec 12) (immLo : BitVec 4)
  | swi (c : Cond) (imm : BitVec 24)
  -- coprocessor, F22 to F25 (R180, R596)
  | cdp (c : Cond) (op1 crn crd cp : BitVec 4) (op2 : BitVec 3) (crm : BitVec 4)
  | mcr (c : Cond) (op1 : BitVec 3) (crn rd cp : BitVec 4) (op2 : BitVec 3) (crm : BitVec 4)
  | mrc (c : Cond) (op1 : BitVec 3) (crn rd cp : BitVec 4) (op2 : BitVec 3) (crm : BitVec 4)
  | stcV4 (c : Cond) (p u n w : Bool) (rn crd cp : BitVec 4) (off : BitVec 8)
  | ldcV4 (c : Cond) (p u n w : Bool) (rn crd cp : BitVec 4) (off : BitVec 8)
  -- the v5 rows of STC and LDC: P = 1; P = 0, U = 1; P = U = N = 0; P = U = 0, N = W = 1
  | stcPre (c : Cond) (u n w : Bool) (rn crd cp : BitVec 4) (off : BitVec 8)
  | stcPostUp (c : Cond) (n w : Bool) (rn crd cp : BitVec 4) (off : BitVec 8)
  | stcPostDown (c : Cond) (w : Bool) (rn crd cp : BitVec 4) (off : BitVec 8)
  | stcPostDownLong (c : Cond) (rn crd cp : BitVec 4) (off : BitVec 8)
  | ldcPre (c : Cond) (u n w : Bool) (rn crd cp : BitVec 4) (off : BitVec 8)
  | ldcPostUp (c : Cond) (n w : Bool) (rn crd cp : BitVec 4) (off : BitVec 8)
  | ldcPostDown (c : Cond) (w : Bool) (rn crd cp : BitVec 4) (off : BitVec 8)
  | ldcPostDownLong (c : Cond) (rn crd cp : BitVec 4) (off : BitVec 8)
  | mcrr (c : Cond) (rn rd cp op crm : BitVec 4)
  | mrrc (c : Cond) (rn rd cp op crm : BitVec 4)
  | cdp2 (op1 crn crd cp : BitVec 4) (op2 : BitVec 3) (crm : BitVec 4)
  | mcr2 (op1 : BitVec 3) (crn rd cp : BitVec 4) (op2 : BitVec 3) (crm : BitVec 4)
  | mrc2 (op1 : BitVec 3) (crn rd cp : BitVec 4) (op2 : BitVec 3) (crm : BitVec 4)
  | stc2 (p u n w : Bool) (rn crd cp : BitVec 4) (off : BitVec 8)
  | ldc2 (p u n w : Bool) (rn crd cp : BitVec 4) (off : BitVec 8)
  -- UNDEFINED words (R195, R600): class 011 with word[4] = 1; class 001 with word[24:20] = 1x000 (no MSR);
  -- the four shapes of the multiply space; the miscellaneous space (R163)
  | undefMedia (word : Word)
  | undefMsrImm (word : Word)
  | undefMul (word : Word)
  | undefSwap21 (word : Word)
  | undefSwap20 (word : Word)
  | undefSwap23 (word : Word)
  | undefMisc (word : Word)
  -- the v4 NV words (R602) and the v5 UNPREDICTABLE unconditional words (R603)
  | nvV4 (word : Word)
  | unpredUncond (word : Word)
deriving DecidableEq, Repr

end Sys2Proof
end

