-- ==== Sys2Proof/Decode.lean ====
section
/-! DEFINITION. The decoder (R150 to R170: the condition field and the 12-bit key word[27:20] : word[7:4]
select the entry) and the encoder (the formats F1 to F26, R171 to R181, with SBZ fields 0 and SBO fields 1).
Decoding a word is total: every word of either variant has exactly one entry (R153, R156). -/

namespace Sys2Proof

/-! ### Bit fields (R11) -/

/-- `w[lo + len - 1 : lo]`. -/
def bits (lo len : Nat) (w : Word) : BitVec len := w.extractLsb' lo len

/-- `w[n]`. -/
def bit (n : Nat) (w : Word) : Bool := w.getLsbD n

/-- The word that holds the field `x` at bit `lo` and zeros elsewhere. -/
def field {n : Nat} (lo : Nat) (x : BitVec n) : Word := x.setWidth 32 <<< lo

/-- The word that holds one bit at place `n`. -/
def flag (n : Nat) (b : Bool) : Word := field n (BitVec.ofBool b)

/-- The condition of R232 with number `b`; none for 0b1111 (R151). -/
def Cond.ofBits (b : BitVec 4) : Option Cond :=
  match b.toNat with
  | 0 => some .eq | 1 => some .ne | 2 => some .cs | 3 => some .cc | 4 => some .mi
  | 5 => some .pl | 6 => some .vs | 7 => some .vc | 8 => some .hi | 9 => some .ls
  | 10 => some .ge | 11 => some .lt | 12 => some .gt | 13 => some .le | 14 => some .al
  | _ => none

/-- The number of a condition (R232). -/
def Cond.bits : Cond → BitVec 4
  | .eq => 0#4 | .ne => 1#4 | .cs => 2#4 | .cc => 3#4 | .mi => 4#4
  | .pl => 5#4 | .vs => 6#4 | .vc => 7#4 | .hi => 8#4 | .ls => 9#4
  | .ge => 10#4 | .lt => 11#4 | .gt => 12#4 | .le => 13#4 | .al => 14#4

/-- `shift`: 00 LSL, 01 LSR, 10 ASR, 11 ROR (R171). -/
def Shift.ofBits (b : BitVec 2) : Shift :=
  match b.toNat with
  | 0 => .lsl | 1 => .lsr | 2 => .asr | _ => .ror

/-- The number of a shift (R171). -/
def Shift.bits : Shift → BitVec 2
  | .lsl => 0#2 | .lsr => 1#2 | .asr => 2#2 | .ror => 3#2

/-- x and y of F19: 1 selects the top half (R194, R360). -/
def Half.ofBit (b : Bool) : Half := if b then .top else .bottom

/-- The bit of a half (R194). -/
def Half.bit : Half → Bool
  | .bottom => false
  | .top => true

/-- R of F14 to F16: 0 CPSR, 1 SPSR (R178). -/
def Psr.ofBit (b : Bool) : Psr := if b then .spsr else .cpsr

/-- The bit of a status register (R178). -/
def Psr.bit : Psr → Bool
  | .cpsr => false
  | .spsr => true

/-! ### Operand fields -/

/-- Bits 11:0 of F1 and F15 (R171, R178). -/
def immOp (w : Word) : ImmOp := ⟨bits 8 4 w, bits 0 8 w⟩

/-- Bits 11:0 of F2 and F9 (R171, R175). -/
def shiftImmOp (w : Word) : ShiftImmOp := ⟨bits 7 5 w, Shift.ofBits (bits 5 2 w), bits 0 4 w⟩

/-- Bits 11:0 of F3 (R171). -/
def shiftRegOp (w : Word) : ShiftRegOp := ⟨bits 8 4 w, Shift.ofBits (bits 5 2 w), bits 0 4 w⟩

/-- `offset_8` of F7: immedH : immedL (R192). -/
def offset8 (w : Word) : BitVec 8 := bits 8 4 w ++ bits 0 4 w

/-! ### The entries of the decode tables -/

/-- `DP_IMM`: the sixteen opcodes, word[24:21] (R164, R155). -/
def dpImm (c : Cond) (w : Word) : Instr :=
  let rn := bits 16 4 w
  let rd := bits 12 4 w
  let sf := bit 20 w
  let o := immOp w
  match (bits 21 4 w).toNat with
  | 0 => .andImm c sf rn rd o
  | 1 => .eorImm c sf rn rd o
  | 2 => .subImm c sf rn rd o
  | 3 => .rsbImm c sf rn rd o
  | 4 => .addImm c sf rn rd o
  | 5 => .adcImm c sf rn rd o
  | 6 => .sbcImm c sf rn rd o
  | 7 => .rscImm c sf rn rd o
  | 8 => .tstImm c rn rd o
  | 9 => .teqImm c rn rd o
  | 10 => .cmpImm c rn rd o
  | 11 => .cmnImm c rn rd o
  | 12 => .orrImm c sf rn rd o
  | 13 => .movImm c sf rn rd o
  | 14 => .bicImm c sf rn rd o
  | _ => .mvnImm c sf rn rd o

/-- `DP_IMMSHIFT`: the sixteen opcodes (R160). -/
def dpImmShift (c : Cond) (w : Word) : Instr :=
  let rn := bits 16 4 w
  let rd := bits 12 4 w
  let sf := bit 20 w
  let o := shiftImmOp w
  match (bits 21 4 w).toNat with
  | 0 => .andImmShift c sf rn rd o
  | 1 => .eorImmShift c sf rn rd o
  | 2 => .subImmShift c sf rn rd o
  | 3 => .rsbImmShift c sf rn rd o
  | 4 => .addImmShift c sf rn rd o
  | 5 => .adcImmShift c sf rn rd o
  | 6 => .sbcImmShift c sf rn rd o
  | 7 => .rscImmShift c sf rn rd o
  | 8 => .tstImmShift c rn rd o
  | 9 => .teqImmShift c rn rd o
  | 10 => .cmpImmShift c rn rd o
  | 11 => .cmnImmShift c rn rd o
  | 12 => .orrImmShift c sf rn rd o
  | 13 => .movImmShift c sf rn rd o
  | 14 => .bicImmShift c sf rn rd o
  | _ => .mvnImmShift c sf rn rd o

/-- `DP_REGSHIFT`: the sixteen opcodes (R160). -/
def dpRegShift (c : Cond) (w : Word) : Instr :=
  let rn := bits 16 4 w
  let rd := bits 12 4 w
  let sf := bit 20 w
  let o := shiftRegOp w
  match (bits 21 4 w).toNat with
  | 0 => .andRegShift c sf rn rd o
  | 1 => .eorRegShift c sf rn rd o
  | 2 => .subRegShift c sf rn rd o
  | 3 => .rsbRegShift c sf rn rd o
  | 4 => .addRegShift c sf rn rd o
  | 5 => .adcRegShift c sf rn rd o
  | 6 => .sbcRegShift c sf rn rd o
  | 7 => .rscRegShift c sf rn rd o
  | 8 => .tstRegShift c rn rd o
  | 9 => .teqRegShift c rn rd o
  | 10 => .cmpRegShift c rn rd o
  | 11 => .cmnRegShift c rn rd o
  | 12 => .orrRegShift c sf rn rd o
  | 13 => .movRegShift c sf rn rd o
  | 14 => .bicRegShift c sf rn rd o
  | _ => .mvnRegShift c sf rn rd o

/-- `MultiplySpace` (R161), by word[24:20]; the UNDEFINED rows by their table pattern (R195). -/
def multiplySpace (c : Cond) (w : Word) : Instr :=
  let sf := bit 20 w
  let r16 := bits 16 4 w
  let r12 := bits 12 4 w
  let r8 := bits 8 4 w
  let r0 := bits 0 4 w
  if bit 24 w then
    if bit 21 w then .undefSwap21 w
    else if bit 20 w then .undefSwap20 w
    else if bit 23 w then .undefSwap23 w
    else if bit 22 w then .swpb c r16 r12 r0
    else .swp c r16 r12 r0
  else if bit 23 w then
    if bit 22 w then
      if bit 21 w then .smlal c sf r16 r12 r8 r0 else .smull c sf r16 r12 r8 r0
    else
      if bit 21 w then .umlal c sf r16 r12 r8 r0 else .umull c sf r16 r12 r8 r0
  else if bit 22 w then .undefMul w
  else if bit 21 w then .mla c sf r16 r12 r8 r0
  else .mul c sf r16 r8 r0

/-- `ExtraLoadStore` (R162): word[6:5] = S H, word[20] = L, word[22] = I. -/
def extraLoadStore (v : Variant) (c : Cond) (w : Word) : Instr :=
  let p := bit 24 w
  let u := bit 23 w
  let wb := bit 21 w
  let rn := bits 16 4 w
  let rd := bits 12 4 w
  let off := offset8 w
  let rm := bits 0 4 w
  if bit 6 w then
    if bit 5 w then
      if bit 20 w then
        if bit 22 w then .ldrshImm c p u wb rn rd off else .ldrshReg c p u wb rn rd rm
      else match v with
        | .v4 => .unpredLsx11 w
        | .v5 => if bit 22 w then .strdImm c p u wb rn rd off else .strdReg c p u wb rn rd rm
    else
      if bit 20 w then
        if bit 22 w then .ldrsbImm c p u wb rn rd off else .ldrsbReg c p u wb rn rd rm
      else match v with
        | .v4 => .unpredLsx10 w
        | .v5 => if bit 22 w then .ldrdImm c p u wb rn rd off else .ldrdReg c p u wb rn rd rm
  else
    if bit 20 w then
      if bit 22 w then .ldrhImm c p u wb rn rd off else .ldrhReg c p u wb rn rd rm
    else
      if bit 22 w then .strhImm c p u wb rn rd off else .strhReg c p u wb rn rd rm

/-- The cells `1yx0` of `Misc` on `v5` (R163): y = word[6], x = word[5]. -/
def dspMul (c : Cond) (w : Word) : Instr :=
  let r16 := bits 16 4 w
  let r12 := bits 12 4 w
  let r8 := bits 8 4 w
  let r0 := bits 0 4 w
  let y := Half.ofBit (bit 6 w)
  let x := Half.ofBit (bit 5 w)
  match bit 22 w, bit 21 w with
  | false, false => .smlaxy c r16 r12 r8 y x r0
  | false, true => if bit 5 w then .smulwy c r16 r8 y r0 else .smlawy c r16 r12 r8 y r0
  | true, false => .smlalxy c r16 r12 r8 y x r0
  | true, true => .smulxy c r16 r8 y x r0

/-- The cells 0101 of `Misc` on `v5` (R163). -/
def qArith (c : Cond) (w : Word) : Instr :=
  let rn := bits 16 4 w
  let rd := bits 12 4 w
  let rm := bits 0 4 w
  match bit 22 w, bit 21 w with
  | false, false => .qadd c rn rd rm
  | false, true => .qsub c rn rd rm
  | true, false => .qdadd c rn rd rm
  | true, true => .qdsub c rn rd rm

/-- `Misc` (R163): op = word[22:21], lo = word[7:4], lo not 1xx1. -/
def misc (v : Variant) (c : Cond) (w : Word) : Instr :=
  let op := (bits 21 2 w).toNat
  match v, (bits 4 4 w).toNat with
  | _, 0 =>
    if bit 21 w then .msrReg c (Psr.ofBit (bit 22 w)) (bits 16 4 w) (bits 0 4 w)
    else .mrs c (Psr.ofBit (bit 22 w)) (bits 12 4 w)
  | v, 1 =>
    if op = 1 then .bx c (bits 0 4 w)
    else if op = 3 ∧ v = .v5 then .clz c (bits 12 4 w) (bits 0 4 w)
    else .undefMisc w
  | .v5, 3 => if op = 1 then .blxReg c (bits 0 4 w) else .undefMisc w
  | .v5, 5 => qArith c w
  | .v5, 7 => if op = 1 then .bkpt c (bits 8 12 w) (bits 0 4 w) else .undefMisc w
  | .v5, 8 => dspMul c w
  | .v5, 10 => dspMul c w
  | .v5, 12 => dspMul c w
  | .v5, 14 => dspMul c w
  | _, _ => .undefMisc w

/-- Class 000 (R160), tested in the rule's order. -/
def class000 (v : Variant) (c : Cond) (w : Word) : Instr :=
  if bits 4 4 w = 9#4 then multiplySpace c w
  else if bit 7 w && bit 4 w then extraLoadStore v c w
  else if bits 23 2 w = 2#2 ∧ bit 20 w = false then misc v c w
  else if bit 4 w then dpRegShift c w
  else dpImmShift c w

/-- Class 001 (R164). -/
def class001 (c : Cond) (w : Word) : Instr :=
  if bits 23 2 w = 2#2 ∧ bit 20 w = false then
    if bit 21 w then .msrImm c (Psr.ofBit (bit 22 w)) (bits 16 4 w) (immOp w)
    else .undefMsrImm w
  else dpImm c w

/-- Class 010, `LS_IMM` (R165), by P, W, B, L. -/
def class010 (c : Cond) (w : Word) : Instr :=
  let u := bit 23 w
  let wb := bit 21 w
  let rn := bits 16 4 w
  let rd := bits 12 4 w
  let off := bits 0 12 w
  match bit 22 w, bit 20 w with
  | false, true =>
    if bit 24 w then .ldrImm c u wb rn rd off
    else if wb then .ldrtImm c u rn rd off else .ldrImmPost c u rn rd off
  | true, true =>
    if bit 24 w then .ldrbImm c u wb rn rd off
    else if wb then .ldrbtImm c u rn rd off else .ldrbImmPost c u rn rd off
  | false, false =>
    if bit 24 w then .strImm c u wb rn rd off
    else if wb then .strtImm c u rn rd off else .strImmPost c u rn rd off
  | true, false =>
    if bit 24 w then .strbImm c u wb rn rd off
    else if wb then .strbtImm c u rn rd off else .strbImmPost c u rn rd off

/-- Class 011, `LS_REG` (R165); word[4] = 1 is UNDEFINED. -/
def class011 (c : Cond) (w : Word) : Instr :=
  let u := bit 23 w
  let wb := bit 21 w
  let rn := bits 16 4 w
  let rd := bits 12 4 w
  let o := shiftImmOp w
  if bit 4 w then .undefMedia w
  else match bit 22 w, bit 20 w with
  | false, true =>
    if bit 24 w then .ldrReg c u wb rn rd o
    else if wb then .ldrtReg c u rn rd o else .ldrRegPost c u rn rd o
  | true, true =>
    if bit 24 w then .ldrbReg c u wb rn rd o
    else if wb then .ldrbtReg c u rn rd o else .ldrbRegPost c u rn rd o
  | false, false =>
    if bit 24 w then .strReg c u wb rn rd o
    else if wb then .strtReg c u rn rd o else .strRegPost c u rn rd o
  | true, false =>
    if bit 24 w then .strbReg c u wb rn rd o
    else if wb then .strbtReg c u rn rd o else .strbRegPost c u rn rd o

/-- Class 100, `LSM` (R166); the S = 1 loads are split by word[15] (R153). -/
def class100 (c : Cond) (w : Word) : Instr :=
  let p := bit 24 w
  let u := bit 23 w
  let wb := bit 21 w
  let rn := bits 16 4 w
  match bit 20 w, bit 22 w with
  | true, false => .ldm c p u wb rn (bits 0 16 w)
  | true, true =>
    if bit 15 w then .ldmReturn c p u wb rn (bits 0 15 w) else .ldmUser c p u wb rn (bits 0 15 w)
  | false, false => .stm c p u wb rn (bits 0 16 w)
  | false, true => .stmUser c p u wb rn (bits 0 16 w)

/-- Class 101, `BRANCH` (R166). -/
def class101 (c : Cond) (w : Word) : Instr :=
  if bit 24 w then .bl c (bits 0 24 w) else .b c (bits 0 24 w)

/-- The `v5` rows of STC and LDC (R167): `key[11:4]` other than 0xC4 and 0xC5. -/
def ldcStcV5 (c : Cond) (w : Word) : Instr :=
  let u := bit 23 w
  let n := bit 22 w
  let wb := bit 21 w
  let rn := bits 16 4 w
  let crd := bits 12 4 w
  let cp := bits 8 4 w
  let off := bits 0 8 w
  if bit 20 w then
    if bit 24 w then .ldcPre c u n wb rn crd cp off
    else if u then .ldcPostUp c n wb rn crd cp off
    else if n then .ldcPostDownLong c rn crd cp off
    else .ldcPostDown c wb rn crd cp off
  else
    if bit 24 w then .stcPre c u n wb rn crd cp off
    else if u then .stcPostUp c n wb rn crd cp off
    else if n then .stcPostDownLong c rn crd cp off
    else .stcPostDown c wb rn crd cp off

/-- Class 110 (R167): MCRR and MRRC on `v5`, LDC and STC. -/
def class110 (v : Variant) (c : Cond) (w : Word) : Instr :=
  let rn := bits 16 4 w
  let rd := bits 12 4 w
  let cp := bits 8 4 w
  match v with
  | .v5 =>
    if bits 20 5 w = 4#5 then .mcrr c rn rd cp (bits 4 4 w) (bits 0 4 w)
    else if bits 20 5 w = 5#5 then .mrrc c rn rd cp (bits 4 4 w) (bits 0 4 w)
    else ldcStcV5 c w
  | .v4 =>
    if bit 20 w then .ldcV4 c (bit 24 w) (bit 23 w) (bit 22 w) (bit 21 w) rn rd cp (bits 0 8 w)
    else .stcV4 c (bit 24 w) (bit 23 w) (bit 22 w) (bit 21 w) rn rd cp (bits 0 8 w)

/-- Class 111 (R167): SWI, CDP, MCR, MRC. -/
def class111 (c : Cond) (w : Word) : Instr :=
  if bit 24 w then .swi c (bits 0 24 w)
  else if bit 4 w = false then
    .cdp c (bits 20 4 w) (bits 16 4 w) (bits 12 4 w) (bits 8 4 w) (bits 5 3 w) (bits 0 4 w)
  else if bit 20 w then
    .mrc c (bits 21 3 w) (bits 16 4 w) (bits 12 4 w) (bits 8 4 w) (bits 5 3 w) (bits 0 4 w)
  else
    .mcr c (bits 21 3 w) (bits 16 4 w) (bits 12 4 w) (bits 8 4 w) (bits 5 3 w) (bits 0 4 w)

/-- `DecodeUncond` (R169): the unconditional space of `v5`. -/
def decodeUncond (w : Word) : Instr :=
  if bits 25 3 w = 5#3 then .blxImm (bit 24 w) (bits 0 24 w)
  else if bits 26 2 w = 1#2 ∧ bit 24 w = true ∧ bits 20 3 w = 5#3 then
    if bit 25 w then
      if bit 4 w then .unpredUncond w else .pldReg (bit 23 w) (bits 16 4 w) (shiftImmOp w)
    else .pldImm (bit 23 w) (bits 16 4 w) (bits 0 12 w)
  else if bits 25 3 w = 6#3 then
    if bit 20 w then
      .ldc2 (bit 24 w) (bit 23 w) (bit 22 w) (bit 21 w) (bits 16 4 w) (bits 12 4 w) (bits 8 4 w) (bits 0 8 w)
    else
      .stc2 (bit 24 w) (bit 23 w) (bit 22 w) (bit 21 w) (bits 16 4 w) (bits 12 4 w) (bits 8 4 w) (bits 0 8 w)
  else if bits 24 4 w = 14#4 then
    if bit 4 w = false then
      .cdp2 (bits 20 4 w) (bits 16 4 w) (bits 12 4 w) (bits 8 4 w) (bits 5 3 w) (bits 0 4 w)
    else if bit 20 w then
      .mrc2 (bits 21 3 w) (bits 16 4 w) (bits 12 4 w) (bits 8 4 w) (bits 5 3 w) (bits 0 4 w)
    else
      .mcr2 (bits 21 3 w) (bits 16 4 w) (bits 12 4 w) (bits 8 4 w) (bits 5 3 w) (bits 0 4 w)
  else .unpredUncond w

/-- The conditional space (R160 to R167), by the class word[27:25]. -/
def decodeCond (v : Variant) (c : Cond) (w : Word) : Instr :=
  match (bits 25 3 w).toNat with
  | 0 => class000 v c w
  | 1 => class001 c w
  | 2 => class010 c w
  | 3 => class011 c w
  | 4 => class100 c w
  | 5 => class101 c w
  | 6 => class110 v c w
  | _ => class111 c w

/-- `Decode` (R153). -/
def decode (v : Variant) (w : Word) : Instr :=
  match Cond.ofBits (bits 28 4 w) with
  | some c => decodeCond v c w
  | none =>
    match v with
    | .v4 => .nvV4 w
    | .v5 => decodeUncond w

/-- Why bytes are no instruction: every word is one, so only fewer than four bytes are refused (R150). -/
inductive DecodeError where
  | truncated
deriving DecidableEq, Repr

/-- The word that four bytes hold, the first at the lowest address (R118). -/
def wordOfBytes (b0 b1 b2 b3 : Byte) : Word :=
  field 0 b0 ||| field 8 b1 ||| field 16 b2 ||| field 24 b3

/-- Decode the first instruction of a run of bytes (R150: four of them) and give back the rest. -/
def decodeBytes (v : Variant) : List Byte → Except DecodeError (Instr × List Byte)
  | b0 :: b1 :: b2 :: b3 :: rest => .ok (decode v (wordOfBytes b0 b1 b2 b3), rest)
  | _ => .error .truncated

/-- The four bytes of a word in store order (R118). -/
def bytesOfWord (w : Word) : List Byte := [bits 0 8 w, bits 8 8 w, bits 16 8 w, bits 24 8 w]

/-- What the decoder of the ARM9 (`v5`) reads from an instruction whose low `nbits` bits are those of `w`
and whose other bits are 0, its bytes laid out as in memory. -/
def decodeTableWord (nbits w : Nat) : Option Instr :=
  match decodeBytes .v5 (bytesOfWord (BitVec.ofNat 32 (w % 2 ^ nbits))) with
  | .ok (i, _) => some i
  | .error _ => none

/-! ### The encoder -/

/-- Bits 11:0 of an immediate operand (R171). -/
def ImmOp.encode (o : ImmOp) : Word := field 8 o.rotate ||| field 0 o.imm8

/-- Bits 11:0 of a register shifted by an immediate (R171). -/
def ShiftImmOp.encode (o : ShiftImmOp) : Word := field 7 o.amount ||| field 5 o.shift.bits ||| field 0 o.rm

/-- Bits 11:0 of a register shifted by a register: bit 7 is 0 and bit 4 is 1 (R171). -/
def ShiftRegOp.encode (o : ShiftRegOp) : Word :=
  field 8 o.rs ||| field 5 o.shift.bits ||| 0x10#32 ||| field 0 o.rm

/-- F1, F2, F3 (R171): `base` holds the class and the opcode, `tail` bits 11:0. -/
def encodeDp (base : Word) (c : Cond) (sf : Bool) (rn rd : RegNo) (tail : Word) : Word :=
  base ||| field 28 c.bits ||| flag 20 sf ||| field 16 rn ||| field 12 rd ||| tail

/-- F4, F5 (R172) and F6 (R173): four register fields round `word[7:4]`. -/
def encodeRegs (base : Word) (c : Cond) (sf : Bool) (r16 r12 r8 r0 : RegNo) : Word :=
  base ||| field 28 c.bits ||| flag 20 sf ||| field 16 r16 ||| field 12 r12 ||| field 8 r8 ||| field 0 r0

/-- F19 (R179): bit 7 is 1, y is bit 6, x is bit 5. -/
def encodeDsp (base : Word) (c : Cond) (r16 r12 r8 : RegNo) (y x : Half) (r0 : RegNo) : Word :=
  base ||| field 28 c.bits ||| field 16 r16 ||| field 12 r12 ||| field 8 r8 ||| flag 6 y.bit |||
    flag 5 x.bit ||| field 0 r0

/-- F7 (R174): `base` holds I, L, S and H; `hi` and `lo` are bits 11:8 and 3:0. -/
def encodeLsx (base : Word) (c : Cond) (p u w : Bool) (rn rd : RegNo) (hi lo : BitVec 4) : Word :=
  base ||| field 28 c.bits ||| flag 24 p ||| flag 23 u ||| flag 21 w ||| field 16 rn ||| field 12 rd |||
    field 8 hi ||| field 0 lo

/-- F8, F9 (R175): `base` holds the class, P, B and L; `tail` is bits 11:0. -/
def encodeLs (base : Word) (c : Cond) (u w : Bool) (rn rd : RegNo) (tail : Word) : Word :=
  base ||| field 28 c.bits ||| flag 23 u ||| flag 21 w ||| field 16 rn ||| field 12 rd ||| tail

/-- F10 (R176): `base` holds the class, S, L and, for the S = 1 loads, word[15]. -/
def encodeLsm {n : Nat} (base : Word) (c : Cond) (p u w : Bool) (rn : RegNo) (list : BitVec n) : Word :=
  base ||| field 28 c.bits ||| flag 24 p ||| flag 23 u ||| flag 21 w ||| field 16 rn ||| field 0 list

/-- F22, F23 (R180), `op1` at bit `at1`: 20 for F22, 21 for F23. -/
def encodeCp {n : Nat} (base : Word) (at1 : Nat) (op1 : BitVec n) (crn rd cp : BitVec 4) (op2 : BitVec 3)
    (crm : BitVec 4) : Word :=
  base ||| field at1 op1 ||| field 16 crn ||| field 12 rd ||| field 8 cp ||| field 5 op2 ||| field 0 crm

/-- F24 (R180). -/
def encodeLdc (base : Word) (p u n w : Bool) (rn crd cp : BitVec 4) (off : BitVec 8) : Word :=
  base ||| flag 24 p ||| flag 23 u ||| flag 22 n ||| flag 21 w ||| field 16 rn ||| field 12 crd |||
    field 8 cp ||| field 0 off

/-- `encode`: the word of an instruction; `base` is the row's `match` (with the SBO bits set). -/
def encode : Instr → Word
  | .andImm c sf rn rd o => encodeDp 0x02000000#32 c sf rn rd o.encode
  | .andImmShift c sf rn rd o => encodeDp 0x00000000#32 c sf rn rd o.encode
  | .andRegShift c sf rn rd o => encodeDp 0x00000000#32 c sf rn rd o.encode
  | .eorImm c sf rn rd o => encodeDp 0x02200000#32 c sf rn rd o.encode
  | .eorImmShift c sf rn rd o => encodeDp 0x00200000#32 c sf rn rd o.encode
  | .eorRegShift c sf rn rd o => encodeDp 0x00200000#32 c sf rn rd o.encode
  | .subImm c sf rn rd o => encodeDp 0x02400000#32 c sf rn rd o.encode
  | .subImmShift c sf rn rd o => encodeDp 0x00400000#32 c sf rn rd o.encode
  | .subRegShift c sf rn rd o => encodeDp 0x00400000#32 c sf rn rd o.encode
  | .rsbImm c sf rn rd o => encodeDp 0x02600000#32 c sf rn rd o.encode
  | .rsbImmShift c sf rn rd o => encodeDp 0x00600000#32 c sf rn rd o.encode
  | .rsbRegShift c sf rn rd o => encodeDp 0x00600000#32 c sf rn rd o.encode
  | .addImm c sf rn rd o => encodeDp 0x02800000#32 c sf rn rd o.encode
  | .addImmShift c sf rn rd o => encodeDp 0x00800000#32 c sf rn rd o.encode
  | .addRegShift c sf rn rd o => encodeDp 0x00800000#32 c sf rn rd o.encode
  | .adcImm c sf rn rd o => encodeDp 0x02A00000#32 c sf rn rd o.encode
  | .adcImmShift c sf rn rd o => encodeDp 0x00A00000#32 c sf rn rd o.encode
  | .adcRegShift c sf rn rd o => encodeDp 0x00A00000#32 c sf rn rd o.encode
  | .sbcImm c sf rn rd o => encodeDp 0x02C00000#32 c sf rn rd o.encode
  | .sbcImmShift c sf rn rd o => encodeDp 0x00C00000#32 c sf rn rd o.encode
  | .sbcRegShift c sf rn rd o => encodeDp 0x00C00000#32 c sf rn rd o.encode
  | .rscImm c sf rn rd o => encodeDp 0x02E00000#32 c sf rn rd o.encode
  | .rscImmShift c sf rn rd o => encodeDp 0x00E00000#32 c sf rn rd o.encode
  | .rscRegShift c sf rn rd o => encodeDp 0x00E00000#32 c sf rn rd o.encode
  | .tstImm c rn rd o => encodeDp 0x03100000#32 c true rn rd o.encode
  | .tstImmShift c rn rd o => encodeDp 0x01100000#32 c true rn rd o.encode
  | .tstRegShift c rn rd o => encodeDp 0x01100000#32 c true rn rd o.encode
  | .teqImm c rn rd o => encodeDp 0x03300000#32 c true rn rd o.encode
  | .teqImmShift c rn rd o => encodeDp 0x01300000#32 c true rn rd o.encode
  | .teqRegShift c rn rd o => encodeDp 0x01300000#32 c true rn rd o.encode
  | .cmpImm c rn rd o => encodeDp 0x03500000#32 c true rn rd o.encode
  | .cmpImmShift c rn rd o => encodeDp 0x01500000#32 c true rn rd o.encode
  | .cmpRegShift c rn rd o => encodeDp 0x01500000#32 c true rn rd o.encode
  | .cmnImm c rn rd o => encodeDp 0x03700000#32 c true rn rd o.encode
  | .cmnImmShift c rn rd o => encodeDp 0x01700000#32 c true rn rd o.encode
  | .cmnRegShift c rn rd o => encodeDp 0x01700000#32 c true rn rd o.encode
  | .orrImm c sf rn rd o => encodeDp 0x03800000#32 c sf rn rd o.encode
  | .orrImmShift c sf rn rd o => encodeDp 0x01800000#32 c sf rn rd o.encode
  | .orrRegShift c sf rn rd o => encodeDp 0x01800000#32 c sf rn rd o.encode
  | .movImm c sf rn rd o => encodeDp 0x03A00000#32 c sf rn rd o.encode
  | .movImmShift c sf rn rd o => encodeDp 0x01A00000#32 c sf rn rd o.encode
  | .movRegShift c sf rn rd o => encodeDp 0x01A00000#32 c sf rn rd o.encode
  | .bicImm c sf rn rd o => encodeDp 0x03C00000#32 c sf rn rd o.encode
  | .bicImmShift c sf rn rd o => encodeDp 0x01C00000#32 c sf rn rd o.encode
  | .bicRegShift c sf rn rd o => encodeDp 0x01C00000#32 c sf rn rd o.encode
  | .mvnImm c sf rn rd o => encodeDp 0x03E00000#32 c sf rn rd o.encode
  | .mvnImmShift c sf rn rd o => encodeDp 0x01E00000#32 c sf rn rd o.encode
  | .mvnRegShift c sf rn rd o => encodeDp 0x01E00000#32 c sf rn rd o.encode
  | .mul c sf rd rs rm => encodeRegs 0x00000090#32 c sf rd 0#4 rs rm
  | .mla c sf rd rn rs rm => encodeRegs 0x00200090#32 c sf rd rn rs rm
  | .umull c sf hi lo rs rm => encodeRegs 0x00800090#32 c sf hi lo rs rm
  | .umlal c sf hi lo rs rm => encodeRegs 0x00A00090#32 c sf hi lo rs rm
  | .smull c sf hi lo rs rm => encodeRegs 0x00C00090#32 c sf hi lo rs rm
  | .smlal c sf hi lo rs rm => encodeRegs 0x00E00090#32 c sf hi lo rs rm
  | .smlaxy c rd rn rs y x rm => encodeDsp 0x01000080#32 c rd rn rs y x rm
  | .smlawy c rd rn rs y rm => encodeDsp 0x01200080#32 c rd rn rs y .bottom rm
  | .smulwy c rd rs y rm => encodeDsp 0x01200080#32 c rd 0#4 rs y .top rm
  | .smlalxy c hi lo rs y x rm => encodeDsp 0x01400080#32 c hi lo rs y x rm
  | .smulxy c rd rs y x rm => encodeDsp 0x01600080#32 c rd 0#4 rs y x rm
  | .swp c rn rd rm => encodeRegs 0x01000090#32 c false rn rd 0#4 rm
  | .swpb c rn rd rm => encodeRegs 0x01400090#32 c false rn rd 0#4 rm
  | .strhImm c p u w rn rd off =>
    encodeLsx 0x004000B0#32 c p u w rn rd (off.extractLsb' 4 4) (off.extractLsb' 0 4)
  | .strhReg c p u w rn rd rm => encodeLsx 0x000000B0#32 c p u w rn rd 0#4 rm
  | .ldrhImm c p u w rn rd off =>
    encodeLsx 0x005000B0#32 c p u w rn rd (off.extractLsb' 4 4) (off.extractLsb' 0 4)
  | .ldrhReg c p u w rn rd rm => encodeLsx 0x001000B0#32 c p u w rn rd 0#4 rm
  | .ldrsbImm c p u w rn rd off =>
    encodeLsx 0x005000D0#32 c p u w rn rd (off.extractLsb' 4 4) (off.extractLsb' 0 4)
  | .ldrsbReg c p u w rn rd rm => encodeLsx 0x001000D0#32 c p u w rn rd 0#4 rm
  | .ldrshImm c p u w rn rd off =>
    encodeLsx 0x005000F0#32 c p u w rn rd (off.extractLsb' 4 4) (off.extractLsb' 0 4)
  | .ldrshReg c p u w rn rd rm => encodeLsx 0x001000F0#32 c p u w rn rd 0#4 rm
  | .ldrdImm c p u w rn rd off =>
    encodeLsx 0x004000D0#32 c p u w rn rd (off.extractLsb' 4 4) (off.extractLsb' 0 4)
  | .ldrdReg c p u w rn rd rm => encodeLsx 0x000000D0#32 c p u w rn rd 0#4 rm
  | .strdImm c p u w rn rd off =>
    encodeLsx 0x004000F0#32 c p u w rn rd (off.extractLsb' 4 4) (off.extractLsb' 0 4)
  | .strdReg c p u w rn rd rm => encodeLsx 0x000000F0#32 c p u w rn rd 0#4 rm
  | .unpredLsx10 word => word
  | .unpredLsx11 word => word
  | .ldrImm c u w rn rd off => encodeLs 0x05100000#32 c u w rn rd (field 0 off)
  | .ldrImmPost c u rn rd off => encodeLs 0x04100000#32 c u false rn rd (field 0 off)
  | .ldrReg c u w rn rd o => encodeLs 0x07100000#32 c u w rn rd o.encode
  | .ldrRegPost c u rn rd o => encodeLs 0x06100000#32 c u false rn rd o.encode
  | .ldrtImm c u rn rd off => encodeLs 0x04100000#32 c u true rn rd (field 0 off)
  | .ldrtReg c u rn rd o => encodeLs 0x06100000#32 c u true rn rd o.encode
  | .ldrbImm c u w rn rd off => encodeLs 0x05500000#32 c u w rn rd (field 0 off)
  | .ldrbImmPost c u rn rd off => encodeLs 0x04500000#32 c u false rn rd (field 0 off)
  | .ldrbReg c u w rn rd o => encodeLs 0x07500000#32 c u w rn rd o.encode
  | .ldrbRegPost c u rn rd o => encodeLs 0x06500000#32 c u false rn rd o.encode
  | .ldrbtImm c u rn rd off => encodeLs 0x04500000#32 c u true rn rd (field 0 off)
  | .ldrbtReg c u rn rd o => encodeLs 0x06500000#32 c u true rn rd o.encode
  | .strImm c u w rn rd off => encodeLs 0x05000000#32 c u w rn rd (field 0 off)
  | .strImmPost c u rn rd off => encodeLs 0x04000000#32 c u false rn rd (field 0 off)
  | .strReg c u w rn rd o => encodeLs 0x07000000#32 c u w rn rd o.encode
  | .strRegPost c u rn rd o => encodeLs 0x06000000#32 c u false rn rd o.encode
  | .strtImm c u rn rd off => encodeLs 0x04000000#32 c u true rn rd (field 0 off)
  | .strtReg c u rn rd o => encodeLs 0x06000000#32 c u true rn rd o.encode
  | .strbImm c u w rn rd off => encodeLs 0x05400000#32 c u w rn rd (field 0 off)
  | .strbImmPost c u rn rd off => encodeLs 0x04400000#32 c u false rn rd (field 0 off)
  | .strbReg c u w rn rd o => encodeLs 0x07400000#32 c u w rn rd o.encode
  | .strbRegPost c u rn rd o => encodeLs 0x06400000#32 c u false rn rd o.encode
  | .strbtImm c u rn rd off => encodeLs 0x04400000#32 c u true rn rd (field 0 off)
  | .strbtReg c u rn rd o => encodeLs 0x06400000#32 c u true rn rd o.encode
  | .pldImm u rn off => 0xF550F000#32 ||| flag 23 u ||| field 16 rn ||| field 0 off
  | .pldReg u rn o => 0xF750F000#32 ||| flag 23 u ||| field 16 rn ||| o.encode
  | .ldm c p u w rn list => encodeLsm 0x08100000#32 c p u w rn list
  | .ldmUser c p u w rn list => encodeLsm 0x08500000#32 c p u w rn list
  | .ldmReturn c p u w rn list => encodeLsm 0x08508000#32 c p u w rn list
  | .stm c p u w rn list => encodeLsm 0x08000000#32 c p u w rn list
  | .stmUser c p u w rn list => encodeLsm 0x08400000#32 c p u w rn list
  | .b c imm => 0x0A000000#32 ||| field 28 c.bits ||| field 0 imm
  | .bl c imm => 0x0B000000#32 ||| field 28 c.bits ||| field 0 imm
  | .bx c rm => 0x012FFF10#32 ||| field 28 c.bits ||| field 0 rm
  | .blxImm h imm => 0xFA000000#32 ||| flag 24 h ||| field 0 imm
  | .blxReg c rm => 0x012FFF30#32 ||| field 28 c.bits ||| field 0 rm
  | .mrs c r rd => 0x010F0000#32 ||| field 28 c.bits ||| flag 22 r.bit ||| field 12 rd
  | .msrImm c r mask o => 0x0320F000#32 ||| field 28 c.bits ||| flag 22 r.bit ||| field 16 mask ||| o.encode
  | .msrReg c r mask rm => 0x0120F000#32 ||| field 28 c.bits ||| flag 22 r.bit ||| field 16 mask ||| field 0 rm
  | .clz c rd rm => 0x016F0F10#32 ||| field 28 c.bits ||| field 12 rd ||| field 0 rm
  | .qadd c rn rd rm => encodeRegs 0x01000050#32 c false rn rd 0#4 rm
  | .qsub c rn rd rm => encodeRegs 0x01200050#32 c false rn rd 0#4 rm
  | .qdadd c rn rd rm => encodeRegs 0x01400050#32 c false rn rd 0#4 rm
  | .qdsub c rn rd rm => encodeRegs 0x01600050#32 c false rn rd 0#4 rm
  | .bkpt c immHi immLo => 0x01200070#32 ||| field 28 c.bits ||| field 8 immHi ||| field 0 immLo
  | .swi c imm => 0x0F000000#32 ||| field 28 c.bits ||| field 0 imm
  | .cdp c op1 crn crd cp op2 crm => encodeCp (0x0E000000#32 ||| field 28 c.bits) 20 op1 crn crd cp op2 crm
  | .mcr c op1 crn rd cp op2 crm => encodeCp (0x0E000010#32 ||| field 28 c.bits) 21 op1 crn rd cp op2 crm
  | .mrc c op1 crn rd cp op2 crm => encodeCp (0x0E100010#32 ||| field 28 c.bits) 21 op1 crn rd cp op2 crm
  | .stcV4 c p u n w rn crd cp off => encodeLdc (0x0C000000#32 ||| field 28 c.bits) p u n w rn crd cp off
  | .ldcV4 c p u n w rn crd cp off => encodeLdc (0x0C100000#32 ||| field 28 c.bits) p u n w rn crd cp off
  | .stcPre c u n w rn crd cp off => encodeLdc (0x0C000000#32 ||| field 28 c.bits) true u n w rn crd cp off
  | .stcPostUp c n w rn crd cp off => encodeLdc (0x0C000000#32 ||| field 28 c.bits) false true n w rn crd cp off
  | .stcPostDown c w rn crd cp off => encodeLdc (0x0C000000#32 ||| field 28 c.bits) false false false w rn crd cp off
  | .stcPostDownLong c rn crd cp off =>
    encodeLdc (0x0C000000#32 ||| field 28 c.bits) false false true true rn crd cp off
  | .ldcPre c u n w rn crd cp off => encodeLdc (0x0C100000#32 ||| field 28 c.bits) true u n w rn crd cp off
  | .ldcPostUp c n w rn crd cp off => encodeLdc (0x0C100000#32 ||| field 28 c.bits) false true n w rn crd cp off
  | .ldcPostDown c w rn crd cp off => encodeLdc (0x0C100000#32 ||| field 28 c.bits) false false false w rn crd cp off
  | .ldcPostDownLong c rn crd cp off =>
    encodeLdc (0x0C100000#32 ||| field 28 c.bits) false false true true rn crd cp off
  | .mcrr c rn rd cp op crm =>
    0x0C400000#32 ||| field 28 c.bits ||| field 16 rn ||| field 12 rd ||| field 8 cp ||| field 4 op ||| field 0 crm
  | .mrrc c rn rd cp op crm =>
    0x0C500000#32 ||| field 28 c.bits ||| field 16 rn ||| field 12 rd ||| field 8 cp ||| field 4 op ||| field 0 crm
  | .cdp2 op1 crn crd cp op2 crm => encodeCp 0xFE000000#32 20 op1 crn crd cp op2 crm
  | .mcr2 op1 crn rd cp op2 crm => encodeCp 0xFE000010#32 21 op1 crn rd cp op2 crm
  | .mrc2 op1 crn rd cp op2 crm => encodeCp 0xFE100010#32 21 op1 crn rd cp op2 crm
  | .stc2 p u n w rn crd cp off => encodeLdc 0xFC000000#32 p u n w rn crd cp off
  | .ldc2 p u n w rn crd cp off => encodeLdc 0xFC100000#32 p u n w rn crd cp off
  | .undefMedia word => word
  | .undefMsrImm word => word
  | .undefMul word => word
  | .undefSwap21 word => word
  | .undefSwap20 word => word
  | .undefSwap23 word => word
  | .undefMisc word => word
  | .nvV4 word => word
  | .unpredUncond word => word

end Sys2Proof
end

