-- ==== Sys2Proof/Machine/State.lean ====
section
/-! DEFINITION. The state of the block as plain data: the two CPUs with their registers, banks, status words,
pipeline fields and buses, the bytes of the raw buffers, the Clock, the parameters (10_state.md, 20_memory.md,
60_exceptions.md section 5); the outcomes that halt a CPU (R620); and `State.reset`. -/

namespace Sys2Proof.Machine

open Sys2Proof.Config

/-- The two CPU instances (R2). -/
inductive CpuId where
  | arm7
  | arm9
deriving DecidableEq, Repr

/-- The seven modes (R31). -/
inductive Mode where
  | usr | fiq | irq | svc | abt | und | sys
deriving DecidableEq, Repr

/-- The register banks (R34, R35): SYS and every invalid mode value use `usr`. -/
inductive BankId where
  | usr | fiq | irq | svc | abt | und
deriving DecidableEq, Repr

/-! ### Outcomes that halt a CPU (R620) -/

/-- The reasons of `Unsupported` with their data (R604, R620, R622). -/
inductive UnsupportedReason where
  /-- An operation that would set `CPSR.T` to 1, with the target of its write of the program counter (R622; for an
  SPSR restore log 12). -/
  | thumbState (target : Word)
  /-- SWI under `EXC_MODEL = unsupported` (R590). -/
  | softwareInterrupt (number : BitVec 24)
  /-- BKPT under `EXC_MODEL = unsupported` (R591). -/
  | breakpoint (imm : BitVec 16)
  /-- Every coprocessor instruction (R596). -/
  | coprocessor (number : BitVec 4)
  /-- UNDEFINED encodings under `EXC_MODEL = unsupported` (R600). -/
  | undefined (word : Word)
deriving DecidableEq, Repr

/-- The reasons of `Unpredictable` (R620; 93_implementation_defined.md section 2). -/
inductive UnpredictableReason where
  | invalidMode | noSPSR | msrChangesT
  | misalignedPC | misalignedPCLoad | misalignedDoubleword
  | pcDestination | pcSource | pcOperand | regShiftPC
  | mulPC | mulOverlap | swapPC | swapOverlap
  | writebackPC | lsRegPC | lsOverlap | postIndexWriteback
  | doubleRegOdd | emptyList | userBankWriteback | userBankInUserMode
  | blxPC | bkptCondition | nvCondition | unconditionalSpace
  | extraLoadStoreV4
deriving DecidableEq, Repr

/-- Why a step raised (R620). -/
inductive StopReason where
  | unsupported (r : UnsupportedReason)
  | unpredictable (r : UnpredictableReason)
  | busFault (addr : Word)
deriving DecidableEq, Repr

/-- The halt record (R236, R620): the reason and the address of the instruction that raised. -/
structure Halt where
  why : StopReason
  pc : Word
deriving DecidableEq, Repr

/-! ### The bus (R100 to R108) -/

/-- What an item leads to (R104): the invalid sentinel, a raw backing buffer (the place of its byte 0 in
`State.mem`, log 14), or a delegate. -/
inductive Accessor where
  | invalid
  | raw (buf : Nat)
  | delegate (dev : Nat)
deriving DecidableEq, Repr

/-- An item of a page (R103): the addresses [base, limit), the offset of R105, the accessor. -/
structure Item where
  base : Nat
  limit : Nat
  offset : Nat
  acc : Accessor
deriving DecidableEq, Repr

/-- The pages of one side of a bus that differ from "one invalid item over the whole page" (R101). -/
abbrev PageTable := List (Nat × List Item)

/-- A bus instance (R100 to R104); the read side and the write side of a range may differ (R104). -/
structure Bus where
  addressBits : Nat
  pageBits : Nat
  readPages : PageTable
  writePages : PageTable
deriving DecidableEq, Repr

/-- A recorded bus call that reached a delegate (R106, R123). -/
inductive BusEvent where
  | read (cpu : CpuId) (dev : Nat) (addr : Word) (answer : Word)
  | write (cpu : CpuId) (dev : Nat) (addr : Word) (value : Word)
deriving DecidableEq, Repr

/-- The bytes of the raw buffers that differ from `Memory.unlisted`, by rising place (log 14). -/
abbrev Memory := List Host.Cell

/-! ### One CPU (R30) -/

/-- The configuration of a CPU, fixed at creation (R10, R30). -/
structure CpuConfig where
  variant : Variant
  endian : Endian
  clockDivider : Nat
  vectorBase : VectorBase
deriving DecidableEq, Repr

/-- The bank `U` (R34): `r[0..14]` and the CPSR shadow that no rule reads (log 26). -/
structure UserBank where
  r : Vector Word 15
  cpsr : Word
deriving DecidableEq, Repr

/-- The bank `F` (R34): `r[8..14]`, here `r[i]` of the spec at index `i - 8`, and the SPSR. -/
structure FiqBank where
  r : Vector Word 7
  spsr : Word
deriving DecidableEq, Repr

/-- A bank `B_M` (R34). -/
structure PrivBank where
  r13 : Word
  r14 : Word
  spsr : Word
deriving DecidableEq, Repr

/-- The bank storage (R34). -/
structure Banks where
  usr : UserBank
  fiq : FiqBank
  irq : PrivBank
  svc : PrivBank
  abt : PrivBank
  und : PrivBank
deriving DecidableEq, Repr

/-- One CPU instance (R30). The flag cache is `cpsr[31:28]` (R42, log 13). -/
structure Cpu where
  cfg : CpuConfig
  bus : Bus
  /-- The live array `r[0..15]`. -/
  r : Vector Word 16
  cpsr : Word
  /-- The live SPSR (R52). -/
  spsr : Word
  banks : Banks
  pc : Word
  pcNext : Word
  /-- The step-local target of `pc <- target` (R240); none between steps (log 23). -/
  pendingPC : Option Word
  tick : Int
  started : Bool
  halted : Option Halt
  /-- The level inputs of R643, set by the host between steps (log 20). -/
  irq : Bool
  fiq : Bool
deriving DecidableEq, Repr

/-! ### The Clock (R62, R670 to R677) -/

/-- A registered master: a CPU, or another schedulable entity with its own tick counter (R62, R673). -/
inductive Master where
  | cpu (id : CpuId)
  | device (name : Nat) (tick : Int)
deriving DecidableEq, Repr

/-- A registered slave (R675). -/
structure Slave where
  name : Nat
  tick : Int
deriving DecidableEq, Repr

/-- Where in the driver's frame loop (R678, R710) and in `Clock.execute` (R671) the block stands (log 9):
before the next call; in a pass over the masters, with the call's target, the index of the master whose turn it
is and the ticks returned so far; after the call, before `Clock.advance` of its target. -/
inductive ClockPhase where
  | idle
  | pass (goal : Int) (next : Nat) (reached : List Int)
  | returned (goal : Int)
deriving DecidableEq, Repr

/-- The Clock (R62). -/
structure Clock where
  targetTick : Int
  executedTick : Int
  masters : List Master
  slaves : List Slave
  phase : ClockPhase
deriving DecidableEq, Repr

/-- The setup operations that can fail (R621, R712). -/
inductive SetupFailure where
  /-- `addRange` with a base or size that is not a multiple of 16 (R102). -/
  | badRange
  /-- `create` of a bus with an impossible geometry (R101). -/
  | badGeometry
  /-- `create` of a CPU of an unknown family (R711). -/
  | unknownFamily
deriving DecidableEq, Repr

/-! ### The block -/

/-- The whole block. -/
structure State where
  arm7 : Cpu
  arm9 : Cpu
  mem : Memory
  clock : Clock
  params : Params
  /-- The setup failure that ended the session (R712), if any. -/
  session : Option SetupFailure
  /-- The recorded delegate calls, newest first (R106). -/
  events : List BusEvent
  /-- The CPU whose `Step()` is performed (the model's own field, log 24). -/
  cur : CpuId
  /-- The number of the next free value (the model's own field, log 6). -/
  draws : Nat
deriving DecidableEq, Repr

/-- Why the machine stops. -/
inductive Fault where
  /-- Raised by `step` alone, when a setup operation of the host had failed: "the session ends and no step
  runs" (R712). Safe: the spec has no step there. -/
  | setupFailed (why : SetupFailure)
deriving DecidableEq, Repr

/-- Why an instruction has no meaning. No arm of `exec` answers with it: every row has its meaning, and an
outcome that halts a CPU is a next state with its halt record (R230, R236, log 8). -/
inductive Refusal where
  /-- An instruction that the model does not give a meaning; raised nowhere. Safe. -/
  | notModelled (mnemonic : String)
deriving DecidableEq, Repr

/-! ### The state after reset -/

/-- The banks after `reset()` (R64, R700). -/
def Banks.reset : Banks where
  usr := { r := Vector.replicate 15 0#32, cpsr := 0#32 }
  fiq := { r := Vector.replicate 7 0#32, spsr := 0#32 }
  irq := { r13 := 0#32, r14 := 0#32, spsr := 0#32 }
  svc := { r13 := 0#32, r14 := 0#32, spsr := 0#32 }
  abt := { r13 := 0#32, r14 := 0#32, spsr := 0#32 }
  und := { r13 := 0#32, r14 := 0#32, spsr := 0#32 }

/-- The bus of both CPUs at reset (DESIGN CHOICE, log 1): 32 address bits, one page, the whole address space
one raw buffer at place 0. ADDRESS_BITS, PAGE_BITS and MEMORY_MAP are OPEN in R10. -/
def Bus.reset : Bus where
  addressBits := 32
  pageBits := 32
  readPages := [(0, [{ base := 0, limit := 4294967296, offset := 0, acc := .raw 0 }])]
  writePages := [(0, [{ base := 0, limit := 4294967296, offset := 0, acc := .raw 0 }])]

/-- A CPU after `create` and `reset()` with the default RESET_CPSR (R64, R700, R711). -/
def Cpu.reset (cfg : CpuConfig) : Cpu where
  cfg := cfg
  bus := Bus.reset
  r := Vector.replicate 16 0#32
  cpsr := 0#32
  spsr := 0#32
  banks := Banks.reset
  pc := 0#32
  pcNext := 0#32
  pendingPC := none
  tick := 0
  started := false
  halted := none
  irq := false
  fiq := false

/-- The Clock as step 1 of the boot sequence leaves it (R62, R710): no masters, no slaves. -/
def Clock.create : Clock where
  targetTick := 0
  executedTick := 0
  masters := []
  slaves := []
  phase := .idle

/-- The Clock before the first frame, after both CPUs were created (R710, R711), with MASTER_ORDER ARM9, ARM7
(DESIGN CHOICE, log 5). -/
def Clock.reset : Clock := { Clock.create with masters := [.cpu .arm9, .cpu .arm7] }

/-- The block right after `reset()` of both CPUs, before any `setPC` (R64, R700, R702; steps 1 to 5 of R710,
which `State.bootReset` runs): no program, no byte of memory listed. CLOCK_DIVIDER 2 and 4 are those of the example R732 (DESIGN CHOICE, log 3). -/
def State.reset : State where
  arm7 := Cpu.reset { variant := .v4, endian := .little, clockDivider := 4, vectorBase := .low }
  arm9 := Cpu.reset { variant := .v5, endian := .little, clockDivider := 2, vectorBase := .low }
  mem := []
  clock := Clock.reset
  params := defaultParams
  session := none
  events := []
  cur := .arm9
  draws := 0

end Sys2Proof.Machine
end

