-- ==== Sys2Proof/Machine/Flags.lean ====
section
/-! DEFINITION. The status words (R50 to R52): their fields, the modes (R31 to R33), the condition table
(R232), the add-with-carry primitive and the flag policies (R301 to R304), saturation (R561). -/

namespace Sys2Proof.Machine

open Sys2Proof.Config

/-! ### Fields of a status word (R50) -/

/-- `w` with bit `n` set to `b`. -/
def setBit (n : Nat) (b : Bool) (w : Word) : Word :=
  if b then w ||| 1#32 <<< n else w &&& ~~~(1#32 <<< n)

/-- `CPSR.N`. -/
def flagN (w : Word) : Bool := bit 31 w
/-- `CPSR.Z`. -/
def flagZ (w : Word) : Bool := bit 30 w
/-- `CPSR.C`. -/
def flagC (w : Word) : Bool := bit 29 w
/-- `CPSR.V`. -/
def flagV (w : Word) : Bool := bit 28 w
/-- `CPSR.Q`. -/
def flagQ (w : Word) : Bool := bit 27 w
/-- `CPSR.I`: IRQ disabled. -/
def flagI (w : Word) : Bool := bit 7 w
/-- `CPSR.F`: FIQ disabled. -/
def flagF (w : Word) : Bool := bit 6 w
/-- `CPSR.T`: Thumb state. -/
def flagT (w : Word) : Bool := bit 5 w
/-- `CPSR.M`. -/
def modeField (w : Word) : BitVec 5 := bits 0 5 w

/-- `w` with N, Z, C, V replaced and bits 27:0 kept. -/
def withNZCV (n z c v : Bool) (w : Word) : Word :=
  (w &&& 0x0FFFFFFF#32) ||| flag 31 n ||| flag 30 z ||| flag 29 c ||| flag 28 v

/-- `w` with the mode field replaced. -/
def withMode (m : BitVec 5) (w : Word) : Word := (w &&& 0xFFFFFFE0#32) ||| field 0 m

/-- `PSR_MASK` (R51). -/
def psrMask : Variant → Word
  | .v4 => 0xF00000FF#32
  | .v5 => 0xF80000FF#32

/-! ### Modes (R31 to R35) -/

/-- The number of a mode (R31). -/
def Mode.bits : Mode → BitVec 5
  | .usr => 0b10000#5
  | .fiq => 0b10001#5
  | .irq => 0b10010#5
  | .svc => 0b10011#5
  | .abt => 0b10111#5
  | .und => 0b11011#5
  | .sys => 0b11111#5

/-- The mode with number `m`; none for the values that are no mode (R31, R32). -/
def Mode.ofBits (m : BitVec 5) : Option Mode :=
  if m = 0b10000#5 then some .usr
  else if m = 0b10001#5 then some .fiq
  else if m = 0b10010#5 then some .irq
  else if m = 0b10011#5 then some .svc
  else if m = 0b10111#5 then some .abt
  else if m = 0b11011#5 then some .und
  else if m = 0b11111#5 then some .sys
  else none

/-- `ValidMode(m)` (R32). -/
def validMode (m : BitVec 5) : Bool := (Mode.ofBits m).isSome

/-- `Privileged(m)` (R32): every value but USR, the reset value 0 included (R33). -/
def privileged (m : BitVec 5) : Bool := m != 0b10000#5

/-- `HasSPSR(m)` (R32). -/
def hasSpsr (m : BitVec 5) : Bool :=
  match Mode.ofBits m with
  | some .fiq | some .irq | some .svc | some .abt | some .und => true
  | _ => false

/-- `BankOf(m)` (R35): SYS and every invalid value use the USR bank. -/
def bankOf (m : BitVec 5) : BankId :=
  match Mode.ofBits m with
  | some .fiq => .fiq
  | some .irq => .irq
  | some .svc => .svc
  | some .abt => .abt
  | some .und => .und
  | _ => .usr

/-- The bank of `Phys(m, i)` for 0 <= i <= 14 (R35). -/
def physBank (m : BitVec 5) (i : Nat) : BankId :=
  match bankOf m with
  | .fiq => if 8 ≤ i then .fiq else .usr
  | .usr => .usr
  | b => if 13 ≤ i then b else .usr

/-! ### Conditions (R232) -/

/-- `ConditionPassed` of a condition on a status word (R232). -/
def condHolds (c : Cond) (psr : Word) : Bool :=
  let n := flagN psr
  let z := flagZ psr
  let cf := flagC psr
  let v := flagV psr
  match c with
  | .eq => z
  | .ne => !z
  | .cs => cf
  | .cc => !cf
  | .mi => n
  | .pl => !n
  | .vs => v
  | .vc => !v
  | .hi => cf && !z
  | .ls => !cf || z
  | .ge => n == v
  | .lt => n != v
  | .gt => !z && n == v
  | .le => z || n != v
  | .al => true

/-- The check of `Step` (R230): a word of the unconditional space always executes. -/
def conditionPassed (word psr : Word) : Bool :=
  match Cond.ofBits (bits 28 4 word) with
  | some c => condHolds c psr
  | none => true

/-! ### Arithmetic -/

/-- The result of `AddWithCarry`. -/
structure AddResult where
  result : Word
  carry : Bool
  overflow : Bool
deriving DecidableEq, Repr

/-- `AddWithCarry(a, b, c)` (R301), on exact integers. -/
def addWithCarry (a b : Word) (c : Bool) : AddResult :=
  let u : Nat := a.toNat + b.toNat + c.toNat
  let i : Int := a.toInt + b.toInt + c.toNat
  let result := BitVec.ofNat 32 u
  { result := result, carry := result.toNat != u, overflow := result.toInt != i }

/-- `CPSR.N` and `CPSR.Z` of a result, with the given C and V (R303, R304). -/
def withResultFlags (r : Word) (c v : Bool) (psr : Word) : Word := withNZCV (bit 31 r) (r == 0#32) c v psr

/-- The largest signed 32-bit value. -/
def maxInt32 : Int := 2147483647
/-- The smallest signed 32-bit value. -/
def minInt32 : Int := -2147483648

/-- `SignedSat32(i)` (R561): the value and whether it saturated. -/
def signedSat32 (i : Int) : Word × Bool :=
  if maxInt32 < i then (0x7FFFFFFF#32, true)
  else if i < minInt32 then (0x80000000#32, true)
  else (BitVec.ofInt 32 i, false)

/-- Whether an exact sum leaves the signed 32-bit range (R361, R363). -/
def outOfRange32 (i : Int) : Bool := decide (i < minInt32) || decide (maxInt32 < i)

/-- The number of leading zero bits (R560): 32 for 0. -/
def leadingZeros (w : Word) : Nat :=
  ((List.range 32).find? fun k => bit (31 - k) w).getD 32

end Sys2Proof.Machine
end

