-- ==== Sys2Proof/Machine/Ops.lean ====
section
/-! DEFINITION. The named operations over the state: the stepping CPU, its registers and banks (R33 to R41),
raising (R15, R236), the bytes of the raw buffers, the bus and the memory interface (R100 to R124), writing
the program counter (R240), writing CPSR and SPSR (R536, R537), and taking an exception (R640). -/

namespace Sys2Proof.Machine

open Sys2Proof.Config

/-- What a meaning answers. -/
abbrev Result := Host.Outcome State Fault Refusal

/-! ### The stepping CPU -/

/-- The CPU `id`. -/
def State.cpuOf (id : CpuId) (s : State) : Cpu :=
  match id with
  | .arm7 => s.arm7
  | .arm9 => s.arm9

/-- The block with CPU `id` replaced. -/
def State.putCpu (id : CpuId) (c : Cpu) (s : State) : State :=
  match id with
  | .arm7 => { s with arm7 := c }
  | .arm9 => { s with arm9 := c }

/-- The stepping CPU. -/
def State.cpu (s : State) : Cpu := s.cpuOf s.cur

/-- The block with the stepping CPU replaced. -/
def State.setCpu (c : Cpu) (s : State) : State := s.putCpu s.cur c

/-- The variant of the stepping CPU. -/
def State.variant (s : State) : Variant := s.cpu.cfg.variant

/-- `mode`: `CPSR.M` of the stepping CPU (R13). -/
def State.mode (s : State) : BitVec 5 := modeField s.cpu.cpsr

/-! ### Raising (R15, R230, R236) -/

/-- The stepping CPU halts with an outcome: the halt record is set, nothing else of it changes. -/
def State.halt (why : StopReason) (s : State) : State :=
  s.setCpu { s.cpu with halted := some { why := why, pc := s.cpu.pc }, pendingPC := none }

/-- `raise` (R15): the instruction ends here; the bus writes already made are those of `s`. -/
def State.raise (why : StopReason) (s : State) : Result := .next (s.halt why)

/-- The first of a rule's checks that applies, in the rule's order. -/
def firstApplying : List (Bool × UnpredictableReason) → Option UnpredictableReason
  | [] => none
  | (applies, r) :: rest => if applies then some r else firstApplying rest

/-- Run `k` unless one of the rule's checks applies. -/
def State.guarded (checks : List (Bool × UnpredictableReason)) (s : State) (k : Result) : Result :=
  match firstApplying checks with
  | some r => s.raise (.unpredictable r)
  | none => k

/-! ### Registers (R13, R33, R41) -/

/-- `x[i]`: the live array; `x[15]` reads `r[15]`, which is `PC + 8` (R44). -/
def State.reg (i : RegNo) (s : State) : Word := s.cpu.r[i.toNat]'i.isLt

/-- `x[i] <- v` for i <= 14; a write of r15 by this notation does not exist (R13, R241, log 21). -/
def State.setReg (i : RegNo) (v : Word) (s : State) : State :=
  if i = 15#4 then s else s.setCpu { s.cpu with r := s.cpu.r.set i.toNat v i.isLt }

/-- Register i of mode value `m` as the banks hold it, 0 <= i <= 14 (R35). -/
def Banks.read (m : BitVec 5) (i : Fin 15) (b : Banks) : Word :=
  match physBank m i.val with
  | .usr => b.usr.r[i.val]
  | .fiq => if h : i.val - 8 < 7 then b.fiq.r[i.val - 8] else 0#32
  | .irq => if i.val = 13 then b.irq.r13 else b.irq.r14
  | .svc => if i.val = 13 then b.svc.r13 else b.svc.r14
  | .abt => if i.val = 13 then b.abt.r13 else b.abt.r14
  | .und => if i.val = 13 then b.und.r13 else b.und.r14

/-- `PhysSPSR(m)` (R35); none when `HasSPSR(m)` is false. -/
def Banks.spsr (m : BitVec 5) (b : Banks) : Option Word :=
  match bankOf m with
  | .usr => none
  | .fiq => some b.fiq.spsr
  | .irq => some b.irq.spsr
  | .svc => some b.svc.spsr
  | .abt => some b.abt.spsr
  | .und => some b.und.spsr

/-- r13, r14 and SPSR saved into a privileged bank, when it is the mode's bank. -/
def Cpu.savePriv (c : Cpu) (mine : Bool) (old : PrivBank) : PrivBank :=
  if mine then { r13 := c.r[13], r14 := c.r[14], spsr := c.spsr } else old

/-- `export(m)` (R36). The flag cache is CPSR itself, so packing it changes nothing (R42). -/
def Cpu.saveBank (m : BitVec 5) (c : Cpu) : Cpu :=
  let b := bankOf m
  { c with
    banks :=
      { usr :=
          { r := Vector.ofFn fun i : Fin 15 =>
              if physBank m i.val = .usr then c.r[i.val] else c.banks.usr.r[i.val],
            cpsr := if b = .usr then c.cpsr else c.banks.usr.cpsr }
        fiq := if b = .fiq then { r := Vector.ofFn fun i : Fin 7 => c.r[i.val + 8], spsr := c.spsr } else c.banks.fiq
        irq := c.savePriv (b == .irq) c.banks.irq
        svc := c.savePriv (b == .svc) c.banks.svc
        abt := c.savePriv (b == .abt) c.banks.abt
        und := c.savePriv (b == .und) c.banks.und } }

/-- `import(m)` (R37): r15 is not touched, and SPSR only when `HasSPSR(m)`. -/
def Cpu.loadBank (m : BitVec 5) (c : Cpu) : Cpu :=
  { c with
    r := Vector.ofFn fun i : Fin 16 => if h : i.val < 15 then c.banks.read m ⟨i.val, h⟩ else c.r[15]
    spsr := (c.banks.spsr m).getD c.spsr }

/-- `CPSR <- new` with `switchMode` round it (R38, R536): export the old mode, write, import the new one. -/
def Cpu.switchTo (new : Word) (c : Cpu) : Cpu :=
  Cpu.loadBank (modeField new) { Cpu.saveBank (modeField c.cpsr) c with cpsr := new }

/-- `UserReg(i)` (R476): the live register when the current mode shares the USR slot, else the bank `U`;
r15 reads `PC + 8` (R479). -/
def State.userReg (i : RegNo) (s : State) : Word :=
  if h : i.toNat < 15 then
    if physBank s.mode i.toNat = .usr then s.reg i else s.cpu.banks.usr.r[i.toNat]
  else s.reg i

/-- `UserReg(i) <- v` for i <= 14 (R476). -/
def State.setUserReg (i : RegNo) (v : Word) (s : State) : State :=
  if h : i.toNat < 15 then
    if physBank s.mode i.toNat = .usr then s.setReg i v
    else
      s.setCpu { s.cpu with banks := { s.cpu.banks with usr := { s.cpu.banks.usr with
        r := s.cpu.banks.usr.r.set i.toNat v h } } }
  else s

/-! ### Status bits of the stepping CPU -/

/-- `CPSR[31:28]` after an instruction that sets the flags (R303, R304, R352). -/
def State.setNZCV (n z c v : Bool) (s : State) : State :=
  s.setCpu { s.cpu with cpsr := withNZCV n z c v s.cpu.cpsr }

/-- N and Z of a result with the given C and V. -/
def State.setResultFlags (r : Word) (c v : Bool) (s : State) : State :=
  s.setCpu { s.cpu with cpsr := withResultFlags r c v s.cpu.cpsr }

/-- `if q then CPSR.Q <- 1` (R360, R561); on `v4` bit 27 is reserved and ignores writes (R50). -/
def State.stickQ (q : Bool) (s : State) : State :=
  if q && s.variant == .v5 then s.setCpu { s.cpu with cpsr := setBit 27 true s.cpu.cpsr } else s

/-! ### The bytes of the raw buffers -/

/-- What a byte that nothing has written reads as (R704 leaves it to the platform; DESIGN CHOICE, log 2). -/
def Memory.unlisted : Byte := 0#8

/-- The byte at a place. -/
def Memory.read : Memory → Nat → Byte
  | [], _ => Memory.unlisted
  | (k, b) :: m, a => if a = k then b else Memory.read m a

/-- The memory with one byte written, in canonical form: rising places, no entry equal to the unlisted byte. -/
def Memory.write : Memory → Nat → Byte → Memory
  | [], a, b => if b = Memory.unlisted then [] else [(a, b)]
  | (k, c) :: m, a, b =>
    if a < k then (if b = Memory.unlisted then (k, c) :: m else (a, b) :: (k, c) :: m)
    else if a = k then (if b = Memory.unlisted then m else (a, b) :: m)
    else (k, c) :: Memory.write m a b

/-- The canonical form above a place: rising, nothing unlisted. -/
def Memory.wfFrom : Nat → Memory → Bool
  | _, [] => true
  | lo, (k, b) :: m => decide (lo ≤ k) && b != Memory.unlisted && Memory.wfFrom (k + 1) m

/-- The canonical form. -/
def Memory.wf (m : Memory) : Bool := Memory.wfFrom 0 m

/-- The 32-bit word at a place: byte `i` is bits [8i+7 : 8i] (R118). -/
def Memory.readWord (m : Memory) (a : Nat) : Word :=
  wordOfBytes (m.read a) (m.read (a + 1)) (m.read (a + 2)) (m.read (a + 3))

/-- The memory with a 32-bit word stored at a place. -/
def Memory.writeWord (m : Memory) (a : Nat) (v : Word) : Memory :=
  (((m.write a (bits 0 8 v)).write (a + 1) (bits 8 8 v)).write (a + 2) (bits 16 8 v)).write (a + 3) (bits 24 8 v)

/-! ### The bus (R100 to R108) -/

/-- The address inside the bus's address space that a CPU address selects; none when it is beyond it and
`HIGH_ADDR = fault` (R108). -/
def Bus.address (hi : HighAddr) (b : Bus) (a : Word) : Option Nat :=
  if a.toNat < 2 ^ b.addressBits then some a.toNat
  else match hi with
    | .fault => none
    | .wrap => some (a.toNat % 2 ^ b.addressBits)

/-- The items of a page: those listed, else one invalid item over the whole page (R101). -/
def Bus.pageItems (b : Bus) (pages : PageTable) (n : Nat) : List Item :=
  match pages.find? (fun p => p.1 == n) with
  | some p => p.2
  | none => [{ base := n * 2 ^ b.pageBits, limit := (n + 1) * 2 ^ b.pageBits, offset := 0, acc := .invalid }]

/-- The item of an address: the page is `a >> pageBits` (R101), the item the one whose range holds a (R103). -/
def Bus.itemAt (b : Bus) (pages : PageTable) (a : Nat) : Option Item :=
  (b.pageItems pages (a / 2 ^ b.pageBits)).find? fun it => decide (it.base ≤ a) && decide (a < it.limit)

/-- What an address leads to on one side of a bus. -/
inductive Target where
  /-- The invalid sentinel, or an address beyond the bus; the address of the `BusFault` (R107, R108, log 15). -/
  | invalid (addr : Word)
  /-- A byte place of a raw buffer (R105). -/
  | raw (place : Nat)
  /-- A delegate and the address it sees (R106). -/
  | delegate (dev : Nat) (addr : Word)
deriving DecidableEq, Repr

/-- Resolve an address on one side of a bus (R101 to R108). -/
def Bus.resolve (hi : HighAddr) (b : Bus) (pages : PageTable) (a : Word) : Target :=
  match b.address hi a with
  | none => .invalid a
  | some n =>
    match b.itemAt pages n with
    | none => .invalid (BitVec.ofNat 32 n)
    | some it =>
      match it.acc with
      | .invalid => .invalid (BitVec.ofNat 32 n)
      | .raw buf => .raw (buf + (n - it.offset))
      | .delegate dev => .delegate dev (BitVec.ofNat 32 n)

/-- How a bus access ends: with a value, or with the address of a `BusFault`; the state holds what the
instruction's bus calls have done so far. -/
inductive Access (α : Type) where
  | done (v : α) (s : State)
  | fault (addr : Word) (s : State)

/-- Go on after an access that was done. -/
def Access.andThen {α β : Type} (x : Access α) (f : α → State → Access β) : Access β :=
  match x with
  | .done v s => f v s
  | .fault a s => .fault a s

/-- The value of an access, transformed. -/
def Access.map {α β : Type} (f : α → β) (x : Access α) : Access β :=
  match x with
  | .done v s => .done (f v) s
  | .fault a s => .fault a s

/-- The rest of the instruction after an access; a fault raises `BusFault` (R107). -/
def Access.finish {α : Type} (x : Access α) (k : α → State → Result) : Result :=
  match x with
  | .done v s => k v s
  | .fault a s => s.raise (.busFault a)

/-- `BusRead32(a)` of the stepping CPU's bus (R100, R105 to R108). -/
def State.busRead32 (a : Word) (s : State) : Access Word :=
  match s.cpu.bus.resolve s.params.highAddr s.cpu.bus.readPages a with
  | .invalid x => .fault x s
  | .raw p => .done (s.mem.readWord p) s
  | .delegate dev x =>
    let answer := delegateAnswer dev s.draws x
    .done answer { s with draws := s.draws + 1, events := .read s.cur dev x answer :: s.events }

/-- `BusWrite32(a, v)` of the stepping CPU's bus (R100, R105 to R108). -/
def State.busWrite32 (a v : Word) (s : State) : Access Unit :=
  match s.cpu.bus.resolve s.params.highAddr s.cpu.bus.writePages a with
  | .invalid x => .fault x s
  | .raw p => .done () { s with mem := s.mem.writeWord p v }
  | .delegate dev x => .done () { s with events := .write s.cur dev x v :: s.events }

/-! ### The memory interface (R110 to R120) -/

/-- `addr AND 0xFFFFFFFC`. -/
def wordAlign (a : Word) : Word := a &&& 0xFFFFFFFC#32

/-- `ByteLane(addr)` (R110). -/
def byteLane (e : Endian) (a : Word) : Nat :=
  match e with
  | .little => (bits 0 2 a).toNat
  | .big => (bits 0 2 a ^^^ 3#2).toNat

/-- `HalfLane(addr)` (R110). -/
def halfLane (e : Endian) (a : Word) : Nat :=
  match e with
  | .little => (bits 1 1 a).toNat
  | .big => (bits 1 1 a ^^^ 1#1).toNat

/-- The word with the `n` bits from `lo` replaced by `v`. -/
def insertLane {n : Nat} (lo : Nat) (v : BitVec n) (w : Word) : Word :=
  (w &&& ~~~field lo (BitVec.allOnes n)) ||| field lo v

/-- The byte order of the stepping CPU. -/
def State.endian (s : State) : Endian := s.cpu.cfg.endian

/-- `MemRead(addr, 4)` (R111). -/
def State.memRead32 (a : Word) (s : State) : Access Word := s.busRead32 (wordAlign a)

/-- `MemRead(addr, 2)` (R112). -/
def State.memRead16 (a : Word) (s : State) : Access (BitVec 16) :=
  (s.busRead32 (wordAlign a)).map (bits (16 * halfLane s.endian a) 16)

/-- `MemRead(addr, 1)` (R113). -/
def State.memRead8 (a : Word) (s : State) : Access Byte :=
  (s.busRead32 (wordAlign a)).map (bits (8 * byteLane s.endian a) 8)

/-- `MemWrite(addr, 4, v)` (R114). -/
def State.memWrite32 (a v : Word) (s : State) : Access Unit := s.busWrite32 (wordAlign a) v

/-- `MemWrite(addr, 2, v)`, a read and a write of the containing word (R115). -/
def State.memWrite16 (a : Word) (v : BitVec 16) (s : State) : Access Unit :=
  (s.busRead32 (wordAlign a)).andThen fun w s1 =>
    s1.busWrite32 (wordAlign a) (insertLane (16 * halfLane s.endian a) v w)

/-- `MemWrite(addr, 1, v)`, a read and a write of the containing word (R116). -/
def State.memWrite8 (a : Word) (v : Byte) (s : State) : Access Unit :=
  (s.busRead32 (wordAlign a)).andThen fun w s1 =>
    s1.busWrite32 (wordAlign a) (insertLane (8 * byteLane s.endian a) v w)

/-- `LoadWord(addr)`: the aligned word rotated right by 8 * addr[1:0] (R406). -/
def State.loadWord (a : Word) (s : State) : Access Word :=
  (s.memRead32 a).map fun w => w.rotateRight (8 * (bits 0 2 a).toNat)

/-- `n` words from `a` on, in increasing address order (R471, R480). -/
def State.loadWords : Nat → Word → State → Access (List Word)
  | 0, _, s => .done [] s
  | n + 1, a, s =>
    (s.memRead32 a).andThen fun v s1 => (State.loadWords n (a + 4#32) s1).map fun vs => v :: vs

/-- The words `vs` stored from `a` on, in increasing address order (R471, R480). -/
def State.storeWords : List Word → Word → State → Access Unit
  | [], _, s => .done () s
  | v :: vs, a, s => (s.memWrite32 a v).andThen fun _ s1 => State.storeWords vs (a + 4#32) s1

/-! ### Writing the program counter (R240) -/

/-- The kind of a write of the program counter. -/
inductive PcKind where
  | plain
  | interwork
deriving DecidableEq, Repr

/-- The kind of LDR and LDM into r15: `interwork` on `v5`, `plain` on `v4` (R240). -/
def loadPcKind : Variant → PcKind
  | .v4 => .plain
  | .v5 => .interwork

/-- The checks of `pc <- target` (R240): what it raises, or the target it will write. -/
def State.pcTarget (k : PcKind) (t : Word) (s : State) : Except StopReason Word :=
  if k = .interwork ∧ bit 0 t = true then .error (.unsupported (.thumbState t))
  else if bits 0 2 t = 0#2 then .ok t
  else match s.params.misalignedPc with
    | .fault => .error (.unpredictable .misalignedPC)
    | .align => .ok (wordAlign t)

/-- `pendingPC <- target` (R240). -/
def State.setPendingPC (t : Word) (s : State) : State := s.setCpu { s.cpu with pendingPC := some t }

/-- `pc <- target` as the last operation of a rule. -/
def State.branchTo (k : PcKind) (t : Word) (s : State) : Result :=
  match s.pcTarget k t with
  | .error why => s.raise why
  | .ok t' => .next (s.setPendingPC t')

/-! ### Writing the status words (R536, R537) -/

/-- Who writes CPSR (R536): MSR, or an SPSR restore, with the value its rule writes to the program counter in the
same step (R305, R478), the target of `ThumbState` (R622, log 12). -/
inductive PsrWriteKind where
  | msr
  | restore (target : Word)
deriving DecidableEq, Repr

/-- The byte mask of a field mask: bit 0 c, 1 x, 2 s, 3 f (R194, R536). -/
def byteMask (fm : BitVec 4) : Word :=
  (if fm.getLsbD 3 then 0xFF000000#32 else 0#32) ||| (if fm.getLsbD 2 then 0x00FF0000#32 else 0#32) |||
    (if fm.getLsbD 1 then 0x0000FF00#32 else 0#32) ||| (if fm.getLsbD 0 then 0x000000FF#32 else 0#32)

/-- The mask m of `CPSRWrite` (R536): USR mode changes only the flags byte by MSR. -/
def State.cpsrMask (fm : BitVec 4) (k : PsrWriteKind) (s : State) : Word :=
  let m := if k = .msr ∧ privileged s.mode = false then byteMask fm &&& 0xFF000000#32 else byteMask fm
  m &&& psrMask s.variant

/-- `new` of `CPSRWrite` (R536). -/
def State.cpsrNew (v : Word) (fm : BitVec 4) (k : PsrWriteKind) (s : State) : Word :=
  (s.cpu.cpsr &&& ~~~s.cpsrMask fm k) ||| (v &&& s.cpsrMask fm k)

/-- The checks of `CPSRWrite` (R536): what it raises, or the word it will write. -/
def State.cpsrCheck (v : Word) (fm : BitVec 4) (k : PsrWriteKind) (s : State) : Except StopReason Word :=
  let new := s.cpsrNew v fm k
  if flagT new = flagT s.cpu.cpsr then
    if modeField (s.cpsrMask fm k) ≠ 0#5 ∧ validMode (modeField new) = false then
      .error (.unpredictable .invalidMode)
    else .ok new
  else match k with
    | .msr => .error (.unpredictable .msrChangesT)
    | .restore target => .error (.unsupported (.thumbState target))

/-- The writes of `CPSRWrite` (R536): with `switchMode` when the mode changes. -/
def State.putCpsr (new : Word) (s : State) : State :=
  if modeField new = s.mode then s.setCpu { s.cpu with cpsr := new }
  else s.setCpu (s.cpu.switchTo new)

/-- `CPSRWrite(v, fm, msr)` as the last operation of a rule. -/
def State.cpsrWrite (v : Word) (fm : BitVec 4) (s : State) : Result :=
  match s.cpsrCheck v fm .msr with
  | .error why => s.raise why
  | .ok new => .next (s.putCpsr new)

/-- `SPSRWrite(v, fm)` (R537). -/
def State.spsrWrite (v : Word) (fm : BitVec 4) (s : State) : Result :=
  if hasSpsr s.mode then
    let m := byteMask fm &&& psrMask s.variant
    .next (s.setCpu { s.cpu with spsr := (s.cpu.spsr &&& ~~~m) ||| (v &&& m) })
  else s.raise (.unpredictable .noSPSR)

/-- The return from an exception (R305, R478, R644): the checks of `CPSR <- SPSR` and of the plain
`pc <- target`, then `before`, the register writes the rule makes in the old mode, then both writes. -/
def State.exceptionReturn (target : Word) (before : State → State) (s : State) : Result :=
  match s.cpsrCheck s.cpu.spsr 0xF#4 (.restore target) with
  | .error why => s.raise why
  | .ok new =>
    match s.pcTarget .plain target with
    | .error why => s.raise why
    | .ok t => .next (((before s).putCpsr new).setPendingPC t)

/-! ### Taking an exception (R640 to R643) -/

/-- The kinds of `ExceptionEntry` (R640). -/
inductive Exception where
  | undefined | swi | prefetchAbort | dataAbort | irq | fiq
deriving DecidableEq, Repr

/-- The new mode (R640). -/
def Exception.mode : Exception → Mode
  | .undefined => .und
  | .swi => .svc
  | .prefetchAbort => .abt
  | .dataAbort => .abt
  | .irq => .irq
  | .fiq => .fiq

/-- The vector offset (R640, R641). -/
def Exception.vector : Exception → Word
  | .undefined => 0x04#32
  | .swi => 0x08#32
  | .prefetchAbort => 0x0C#32
  | .dataAbort => 0x10#32
  | .irq => 0x18#32
  | .fiq => 0x1C#32

/-- r14 of the new mode, from the address PC of R640. -/
def Exception.link (k : Exception) (pc : Word) : Word :=
  match k with
  | .dataAbort => pc + 8#32
  | _ => pc + 4#32

/-- `VECTOR_BASE` (R641). -/
def vectorAddress : VectorBase → Word
  | .low => 0x00000000#32
  | .high => 0xFFFF0000#32

/-- The new CPSR of an entry: M, T <- 0, I <- 1, F <- 1 for FIQ, the rest of the old word (R640). -/
def Exception.cpsr (k : Exception) (old : Word) : Word :=
  let new := setBit 7 true (setBit 5 false (withMode k.mode.bits old))
  match k with
  | .fiq => setBit 6 true new
  | _ => new

/-- `ExceptionEntry(kind)` (R640): switchMode, SPSR and r14 of the new mode, the vector as the next pc. The
vector is word aligned, so the checks of `pc <-` never raise (R641). -/
def State.enterException (k : Exception) (s : State) : State :=
  let c := s.cpu
  let old := c.cpsr
  let c1 := c.switchTo (k.cpsr old)
  s.setCpu { c1 with
    spsr := old
    r := c1.r.set 14 (k.link c.pc)
    pendingPC := some (vectorAddress c.cfg.vectorBase + k.vector) }

/-- SWI, BKPT and UNDEFINED (R590, R591, R600): refused or entered, by `EXC_MODEL`. -/
def State.exceptionOr (k : Exception) (why : UnsupportedReason) (s : State) : Result :=
  match s.params.excModel with
  | .unsupported => s.raise (.unsupported why)
  | .architectural => .next (s.enterException k)

end Sys2Proof.Machine
end

