-- ==== Sys2Proof/Machine/Clock.lean ====
section
/-! DEFINITION. The Clock (R62, R670 to R679): which CPU steps next, and the moves of the Clock and of the driver's
frame loop between the steps of the CPUs. `Clock.execute` and `CPU.execute` are loops over steps; here each turn of a
loop is a step of the block, and `ClockPhase` says where in the loops the block stands (log 9). -/

namespace Sys2Proof.Machine

open Sys2Proof.Config

/-! ### Which CPU steps next -/

/-- Whether `Step()` of a CPU does anything: started, and not halted (R47, R236). -/
def Cpu.alive (c : Cpu) : Bool := c.started && c.halted.isNone

/-- The loop condition of `CPU.execute(t)` (R670). -/
def Cpu.runsTo (t : Int) (c : Cpu) : Bool := c.alive && decide (c.tick < t)

/-- The master whose turn it is in the pass (R672). -/
def Clock.current (c : Clock) : Option Master :=
  match c.phase with
  | .pass _ k _ => c.masters[k]?
  | _ => none

/-- The CPU that steps next under `SCHEDULE = clock` (R670, R672): the CPU whose turn it is, while it is below the
target. -/
def State.clockTurn (s : State) : Option CpuId :=
  match s.clock.current with
  | some (.cpu id) => if (s.cpuOf id).runsTo s.clock.targetTick then some id else none
  | _ => none

/-- The CPU that steps next under `SCHEDULE = any` (R130, log 18): any CPU that can step. -/
def State.anyTurn (s : State) : Option CpuId :=
  match s.arm9.alive, s.arm7.alive with
  | true, true => some (if scheduleChoice s.draws then .arm9 else .arm7)
  | true, false => some .arm9
  | false, true => some .arm7
  | false, false => none

/-- The CPU that steps next, if any. -/
def State.turn (s : State) : Option CpuId :=
  match s.params.schedule with
  | .clock => s.clockTurn
  | .any => s.anyTurn

/-- The block with CPU `id` as the stepping CPU; under `SCHEDULE = any` the choice was a draw. -/
def State.select (id : CpuId) (s : State) : State :=
  { s with cur := id, draws := if s.params.schedule = .any then s.draws + 1 else s.draws }

/-! ### The moves of the Clock -/

/-- Every slave executes to a tick (R671, R675). -/
def Clock.runSlaves (t : Int) (c : Clock) : Clock :=
  { c with slaves := c.slaves.map fun x => { x with tick := t } }

/-- The minimum of the ticks returned in a pass; the target of the call when there are no masters (R671, D21). -/
def minReached (goal : Int) : List Int → Int
  | [] => goal
  | t :: ts => ts.foldl min t

/-- The end of a pass over the masters (R671): `executedTick`, the under-run test, and what follows: the same pass
with the lower target, the outer loop again, or the slaves and the return of the call. -/
def Clock.endPass (goal : Int) (reached : List Int) (c : Clock) : Clock :=
  let e := minReached goal reached
  let c1 := { c with executedTick := e }
  if reached.any (fun t => decide (t < c.targetTick)) then { c1 with targetTick := e, phase := .pass goal 0 [] }
  else if e < goal then { c1 with targetTick := goal, phase := .pass goal 0 [] }
  else { c1.runSlaves e with phase := .returned goal }

/-- `Clock.execute(T)` up to its first pass (R671): the loop is not entered when `executedTick >= T`. -/
def Clock.call (goal : Int) (c : Clock) : Clock :=
  if c.executedTick < goal then { c with targetTick := goal, phase := .pass goal 0 [] }
  else { c.runSlaves c.executedTick with phase := .returned goal }

/-- The tick a CPU returns when its `execute(t)` steps no further (R670): a CPU that is not started or is halted
idles to `t`. -/
def Cpu.idleTick (t : Int) (c : Cpu) : Int := if c.alive then c.tick else max c.tick t

/-- The pass goes on with the next master after one returned `t` (R671). -/
def Clock.returnedTick (goal : Int) (k : Nat) (reached : List Int) (t : Int) (c : Clock) : Clock :=
  { c with phase := .pass goal (k + 1) (reached ++ [t]) }

/-- The tick that a master which is not a CPU, at `tick`, returns when asked for `t` (log 19): a free value, but
never below its tick, and, when `t` is greater than its tick, a larger one (the progress R673 assumes). -/
def deviceTick (name draw : Nat) (tick t : Int) : Int :=
  max (if tick < t then tick + 1 else tick) (deviceReach name draw t)

/-- One turn of the pass in which no CPU steps (R671): a CPU that is done returns its tick, a master that is not a
CPU is executed (R673, log 19), and after the last master the pass ends. -/
def State.passTurn (goal : Int) (k : Nat) (reached : List Int) (s : State) : State :=
  match s.clock.masters[k]? with
  | none => { s with clock := s.clock.endPass goal reached }
  | some (.cpu id) =>
    let c := s.cpuOf id
    let t := c.idleTick s.clock.targetTick
    { s.putCpu id { c with tick := t } with clock := s.clock.returnedTick goal k reached t }
  | some (.device name tick) =>
    let t := deviceTick name s.draws tick s.clock.targetTick
    { s with
      draws := s.draws + 1
      clock := Clock.returnedTick goal k reached t
        { s.clock with masters := s.clock.masters.set k (.device name t) } }

/-- `tick <- tick - d` of a registered CPU (R676); a device's tick stands in the list itself. -/
def State.rebaseMaster (d : Int) (s : State) : Master → State
  | .cpu id => s.putCpu id { s.cpuOf id with tick := (s.cpuOf id).tick - d }
  | .device _ _ => s

/-- The ticks of `Clock.advance(d)` that the Clock itself holds (R676). -/
def Clock.rebase (d : Int) (c : Clock) : Clock :=
  { c with
    executedTick := c.executedTick - d
    targetTick := c.targetTick - d
    masters := c.masters.map fun
      | .cpu id => .cpu id
      | .device name t => .device name (t - d)
    slaves := c.slaves.map fun x => { x with tick := x.tick - d } }

/-- `Clock.advance(d)` (R676); a CPU registered twice is rebased twice (DESIGN CHOICE, log 30). -/
def State.clockAdvance (d : Int) (s : State) : State :=
  let s1 := s.clock.masters.foldl (State.rebaseMaster d) s
  { s1 with clock := s1.clock.rebase d }

/-- The block's step when no CPU steps: the driver's frame loop (R678) and the Clock (R671). Under `SCHEDULE = any`
the Clock does not run (log 18). -/
def State.clockStep (s : State) : State :=
  match s.params.schedule with
  | .any => s
  | .clock =>
    match s.clock.phase with
    | .idle => { s with clock := s.clock.call s.params.ticksPerFrame }
    | .pass goal k reached => s.passTurn goal k reached
    | .returned goal =>
      let s1 := s.clockAdvance goal
      { s1 with clock := { s1.clock with phase := .idle } }

end Sys2Proof.Machine
end

