-- ==== Sys2Proof/Machine/Operands.lean ====
section
/-! DEFINITION. The operand forms: the shifter operand of data processing (R270 to R278), addressing modes 2
and 3 with their restrictions and the order of a single transfer (R400 to R408, R420 to R423, R440),
addressing mode 4 (R470 to R474), and the halves of a DSP multiply (R360). -/

namespace Sys2Proof.Machine

open Sys2Proof.Config

/-! ### The shifter operand (R270 to R277) -/

/-- What the shifter evaluator gives (R270): the value and the shifter carry-out. -/
structure Shifted where
  value : Word
  carry : Bool
deriving DecidableEq, Repr

/-- All bits equal to bit 31 of `m`. -/
def signFill (m : Word) : Word := if bit 31 m then 0xFFFFFFFF#32 else 0#32

/-- The rotated immediate (R190). -/
def immValue (o : ImmOp) : Word := (o.imm8.setWidth 32).rotateRight (2 * o.rotate.toNat)

/-- F1 (R271). -/
def shiftImmediate (o : ImmOp) (c : Bool) : Shifted :=
  let v := immValue o
  { value := v, carry := if o.rotate = 0#4 then c else bit 31 v }

/-- A register shifted by an immediate (R272 to R275): `n = 0` is LSL #0, LSR #32, ASR #32 and RRX. -/
def shiftByImm (sh : Shift) (m : Word) (n : Nat) (c : Bool) : Shifted :=
  match sh with
  | .lsl => if n = 0 then ⟨m, c⟩ else ⟨m <<< n, bit (32 - n) m⟩
  | .lsr => if n = 0 then ⟨0#32, bit 31 m⟩ else ⟨m >>> n, bit (n - 1) m⟩
  | .asr => if n = 0 then ⟨signFill m, bit 31 m⟩ else ⟨m.sshiftRight n, bit (n - 1) m⟩
  | .ror => if n = 0 then ⟨m >>> 1 ||| flag 31 c, bit 0 m⟩ else ⟨m.rotateRight n, bit (n - 1) m⟩

/-- A register shifted by a register, amount 0 to 255 (R276). -/
def shiftByReg (sh : Shift) (m : Word) (n : Nat) (c : Bool) : Shifted :=
  if n = 0 then ⟨m, c⟩
  else match sh with
    | .lsl => if n < 32 then ⟨m <<< n, bit (32 - n) m⟩ else if n = 32 then ⟨0#32, bit 0 m⟩ else ⟨0#32, false⟩
    | .lsr => if n < 32 then ⟨m >>> n, bit (n - 1) m⟩ else if n = 32 then ⟨0#32, bit 31 m⟩ else ⟨0#32, false⟩
    | .asr => if n < 32 then ⟨m.sshiftRight n, bit (n - 1) m⟩ else ⟨signFill m, bit 31 m⟩
    | .ror => if n % 32 = 0 then ⟨m, bit 31 m⟩ else ⟨m.rotateRight (n % 32), bit (n % 32 - 1) m⟩

/-- `CPSR.C` of the stepping CPU. -/
def State.carry (s : State) : Bool := flagC s.cpu.cpsr

/-- The shifter of `DP_IMM` (R270, R271). -/
def State.immOperand (o : ImmOp) (s : State) : Shifted := shiftImmediate o s.carry

/-- The shifter of `DP_IMMSHIFT` (R270, R272 to R275, R277). -/
def State.shiftImmOperand (o : ShiftImmOp) (s : State) : Shifted :=
  shiftByImm o.shift (s.reg o.rm) o.amount.toNat s.carry

/-- The shifter of `DP_REGSHIFT` (R270, R276): the amount is the low byte of Rs. -/
def State.shiftRegOperand (o : ShiftRegOp) (s : State) : Shifted :=
  shiftByReg o.shift (s.reg o.rm) (bits 0 8 (s.reg o.rs)).toNat s.carry

/-! ### Addressing modes 2 and 3 (R400 to R408, R420 to R423, R440) -/

/-- The index bits of a transfer: P, U, W (R400, R420). -/
structure Index where
  p : Bool
  u : Bool
  w : Bool
deriving DecidableEq, Repr

/-- `wb` (R402): post-indexed always writes back. -/
def Index.writesBack (x : Index) : Bool := !x.p || x.w

/-- The offset operand of a transfer: an immediate, a scaled register (R401) or a plain register (R421). -/
inductive Offset where
  | imm (v : Word)
  | scaled (o : ShiftImmOp)
  | reg (rm : RegNo)
deriving DecidableEq, Repr

/-- `offset_12` (R192, R401). -/
def offset12 (v : BitVec 12) : Offset := .imm (v.setWidth 32)

/-- `offset_8` of F7 (R192, R421). -/
def offset8Imm (v : BitVec 8) : Offset := .imm (v.setWidth 32)

/-- Rm of a register offset. -/
def Offset.rm : Offset → Option RegNo
  | .imm _ => none
  | .scaled o => some o.rm
  | .reg rm => some rm

/-- The value of an offset (R401, R421); the shifter carry is dropped (R278). -/
def State.offsetValue (o : Offset) (s : State) : Word :=
  match o with
  | .imm v => v
  | .scaled sh => (s.shiftImmOperand sh).value
  | .reg rm => s.reg rm

/-- `offAddr` (R402). -/
def State.offsetAddress (x : Index) (rn : RegNo) (o : Offset) (s : State) : Word :=
  if x.u then s.reg rn + s.offsetValue o else s.reg rn - s.offsetValue o

/-- `addr` (R402). -/
def State.transferAddress (x : Index) (rn : RegNo) (o : Offset) (s : State) : Word :=
  if x.p then s.offsetAddress x rn o else s.reg rn

/-- The checks that R404 and R423 share: write-back with Rn = 15, Rm = 15, write-back with Rn = Rm. -/
def indexChecks (x : Index) (rn : RegNo) (o : Offset) : List (Bool × UnpredictableReason) :=
  [(x.writesBack && rn == 15#4, .writebackPC),
   (o.rm == some 15#4, .lsRegPC),
   (x.writesBack && o.rm == some rn, .lsOverlap)]

/-- The first check of R423: P = 0 and W = 1 in addressing mode 3. -/
def postIndexCheck (x : Index) : List (Bool × UnpredictableReason) :=
  [(!x.p && x.w, .postIndexWriteback)]

/-- The checks of LDRD and STRD (R440), after those of R423; `load` for LDRD. -/
def doubleChecks (load : Bool) (x : Index) (rn rd : RegNo) (o : Offset) (addr : Word) :
    List (Bool × UnpredictableReason) :=
  [(rd.getLsbD 0, .doubleRegOdd),
   (rd == 14#4, .pcDestination),
   (load && (o.rm == some rd || o.rm == some (rd + 1#4)), .lsOverlap),
   (x.writesBack && (rn == rd || rn == rd + 1#4), .lsOverlap),
   (bits 0 3 addr != 0#3, .misalignedDoubleword)]

/-- The base write-back of a transfer (R403). -/
def State.writeBack (x : Index) (rn : RegNo) (offAddr : Word) (s : State) : State :=
  if x.writesBack then s.setReg rn offAddr else s

/-- The register writes of a load, in the order of R403: pre-indexed base first, post-indexed base last. -/
def State.commitLoad (x : Index) (rn : RegNo) (offAddr : Word) (write : State → State) (s : State) : State :=
  if x.p then write (s.writeBack x rn offAddr) else (write s).writeBack x rn offAddr

/-- A load into a general register: checks, access, register writes (R403). -/
def State.loadTransfer (checks : List (Bool × UnpredictableReason)) (x : Index) (rn rd : RegNo) (o : Offset)
    (access : Word → State → Access Word) (s : State) : Result :=
  s.guarded checks <|
    (access (s.transferAddress x rn o) s).finish fun v s1 =>
      .next (s1.commitLoad x rn (s.offsetAddress x rn o) (State.setReg rd v))

/-- A store: checks, access, write-back (R403); the data are read before the write-back. -/
def State.storeTransfer (checks : List (Bool × UnpredictableReason)) (x : Index) (rn : RegNo) (o : Offset)
    (access : Word → State → Access Unit) (s : State) : Result :=
  s.guarded checks <|
    (access (s.transferAddress x rn o) s).finish fun _ s1 =>
      .next (s1.writeBack x rn (s.offsetAddress x rn o))

/-- LDR with Rd = 15 (R407): the alignment of the address, the load, the checks of `pc <- v`, the writes. -/
def State.loadPcTransfer (checks : List (Bool × UnpredictableReason)) (x : Index) (rn : RegNo) (o : Offset)
    (s : State) : Result :=
  let addr := s.transferAddress x rn o
  s.guarded (checks ++ [(bits 0 2 addr != 0#2, .misalignedPCLoad)]) <|
    (s.memRead32 addr).finish fun v s1 =>
      match s1.pcTarget (loadPcKind s.variant) v with
      | .error why => s1.raise why
      | .ok t => .next (s1.commitLoad x rn (s.offsetAddress x rn o) (State.setPendingPC t))

/-! ### Addressing mode 4 (R470 to R474) -/

/-- The registers of a list in increasing number (R471). -/
def listedRegs (list : BitVec 16) : List RegNo :=
  ((List.range 16).filter fun i => list.getLsbD i).map (BitVec.ofNat 4)

/-- `4n`. -/
def blockBytes (list : BitVec 16) : Word := BitVec.ofNat 32 (4 * (listedRegs list).length)

/-- The start address, by P and U (R471). -/
def blockStart (p u : Bool) (base : Word) (list : BitVec 16) : Word :=
  match p, u with
  | false, true => base
  | true, true => base + 4#32
  | false, false => base - blockBytes list + 4#32
  | true, false => base - blockBytes list

/-- The write-back value, by U (R471). -/
def blockEnd (u : Bool) (base : Word) (list : BitVec 16) : Word :=
  if u then base + blockBytes list else base - blockBytes list

/-- The checks of R472 that every block transfer makes. -/
def blockChecks (rn : RegNo) (list : BitVec 16) : List (Bool × UnpredictableReason) :=
  [(rn == 15#4, .writebackPC), (list == 0#16, .emptyList)]

/-- The registers `rs` written with the words `vs`, in order; r15 is left to `pc <-` (R473, R478). -/
def State.setRegs : List RegNo → List Word → State → State
  | r :: rs, v :: vs, s => State.setRegs rs vs (s.setReg r v)
  | _, _, s => s

/-- The USR-mode registers `rs` written with the words `vs`, in order (R476, R477). -/
def State.setUserRegs : List RegNo → List Word → State → State
  | r :: rs, v :: vs, s => State.setUserRegs rs vs (s.setUserReg r v)
  | _, _, s => s

/-! ### Halves (R360) -/

/-- `sint(Half(v, sel))`. -/
def halfValue (sel : Half) (v : Word) : Int :=
  match sel with
  | .bottom => (bits 0 16 v).toInt
  | .top => (bits 16 16 v).toInt

end Sys2Proof.Machine
end

