-- ==== Sys2Proof/Machine/BlockTransfer.lean ====
section
/-! DEFINITION. Block transfers (R470 to R480): LDM and STM in their five rows. -/

namespace Sys2Proof.Machine

open Sys2Proof.Config

/-! ### Shared operations -/

/-- The overlap check of R472 for the loads: write-back with the base in the list. -/
def ldmOverlapCheck (w : Bool) (rn : RegNo) (list : BitVec 16) : List (Bool × UnpredictableReason) :=
  [(w && list.getLsbD rn.toNat, .lsOverlap)]

/-- The overlap check of R472 for STM: write-back with the base in the list, but not its lowest register. -/
def stmOverlapCheck (w : Bool) (rn : RegNo) (list : BitVec 16) : List (Bool × UnpredictableReason) :=
  [(w && list.getLsbD rn.toNat && (listedRegs list).head? != some rn, .lsOverlap)]

/-- The checks of R472 for the user-register forms. -/
def State.userBankChecks (w : Bool) (s : State) : List (Bool × UnpredictableReason) :=
  [(w, .userBankWriteback), (!hasSpsr s.mode, .userBankInUserMode)]

/-- `v_last`, the word loaded for r15 (R473). -/
def lastWord (vs : List Word) : Word := vs.getLast?.getD 0#32

/-- `if W == 1 then x[Rn] <- write-back value` (R473, R475, R478). -/
def State.blockWriteBack (w : Bool) (rn : RegNo) (value : Word) (s : State) : State :=
  if w then s.setReg rn value else s

/-- The register writes of a block load: the base, then the listed registers (R473, R478). -/
def State.blockCommit (w : Bool) (rn : RegNo) (value : Word) (list : BitVec 16) (vs : List Word)
    (s : State) : State :=
  (s.blockWriteBack w rn value).setRegs (listedRegs list) vs

/-- The loads of a block transfer from its start address (R471, R480). -/
def State.blockLoad (p u : Bool) (rn : RegNo) (list : BitVec 16) (s : State) : Access (List Word) :=
  s.loadWords (listedRegs list).length (blockStart p u (s.reg rn) list)

/-- The stores of a block transfer from its start address (R471, R480). -/
def State.blockStore (p u : Bool) (rn : RegNo) (list : BitVec 16) (vs : List Word) (s : State) :
    Access Unit :=
  s.storeWords vs (blockStart p u (s.reg rn) list)

/-! ### The instructions -/

/-- LDM (R473). -/
def execLdm (p u w : Bool) (rn : RegNo) (list : BitVec 16) (s : State) : Result :=
  s.guarded (blockChecks rn list ++ ldmOverlapCheck w rn list) <|
    (s.blockLoad p u rn list).finish fun vs s1 =>
      if list.getLsbD 15 then
        match s1.pcTarget (loadPcKind s.variant) (lastWord vs) with
        | .error why => s1.raise why
        | .ok t => .next ((s1.blockCommit w rn (blockEnd u (s.reg rn) list) list vs).setPendingPC t)
      else .next (s1.blockCommit w rn (blockEnd u (s.reg rn) list) list vs)

/-- LDM of user registers (R477); `low` is the list without its bit 15, which is 0. -/
def execLdmUser (p u w : Bool) (rn : RegNo) (low : BitVec 15) (s : State) : Result :=
  let list : BitVec 16 := 0#1 ++ low
  s.guarded (blockChecks rn list ++ s.userBankChecks w) <|
    (s.blockLoad p u rn list).finish fun vs s1 => .next (s1.setUserRegs (listedRegs list) vs)

/-- LDM exception return (R478); `low` is the list without its bit 15, which is 1. -/
def execLdmReturn (p u w : Bool) (rn : RegNo) (low : BitVec 15) (s : State) : Result :=
  let list : BitVec 16 := 1#1 ++ low
  s.guarded (blockChecks rn list ++ ldmOverlapCheck w rn list ++ [(!hasSpsr s.mode, .noSPSR)]) <|
    (s.blockLoad p u rn list).finish fun vs s1 =>
      s1.exceptionReturn (lastWord vs) (State.blockCommit w rn (blockEnd u (s.reg rn) list) list vs)

/-- STM (R475); r15 stores `PC + 8`. -/
def execStm (p u w : Bool) (rn : RegNo) (list : BitVec 16) (s : State) : Result :=
  s.guarded (blockChecks rn list ++ stmOverlapCheck w rn list) <|
    (s.blockStore p u rn list ((listedRegs list).map fun i => s.reg i)).finish fun _ s1 =>
      .next (s1.blockWriteBack w rn (blockEnd u (s.reg rn) list))

/-- STM of user registers (R479). -/
def execStmUser (p u w : Bool) (rn : RegNo) (list : BitVec 16) (s : State) : Result :=
  s.guarded (blockChecks rn list ++ s.userBankChecks w) <|
    (s.blockStore p u rn list ((listedRegs list).map fun i => s.userReg i)).finish fun _ s1 => .next s1

end Sys2Proof.Machine
end

