-- ==== Sys2Proof/Machine/Branch.lean ====
section
/-! DEFINITION. The branches (R500 to R505). -/

namespace Sys2Proof.Machine

open Sys2Proof.Config

/-- `x[15] + sext_32(imm24 : 0b00)` (R500, R501). -/
def State.branchTarget (imm : BitVec 24) (s : State) : Word :=
  s.reg 15#4 + (imm ++ 0#2).signExtend 32

/-- The target of BLX (immediate), `x[15] + sext_32(imm24 : H : 0b0)` (R503). -/
def State.thumbTarget (h : Bool) (imm : BitVec 24) (s : State) : Word :=
  s.reg 15#4 + (imm ++ BitVec.ofBool h ++ 0#1).signExtend 32

/-- `x[14] <- x[15] - 4`, the address of the next instruction (R501, R504). -/
def State.linkReg (s : State) : State := s.setReg 14#4 (s.reg 15#4 - 4#32)

/-- `pc <- target` with its checks first, then the link register, then the target (R501, R504). -/
def State.branchLink (k : PcKind) (t : Word) (s : State) : Result :=
  match s.pcTarget k t with
  | .error why => s.raise why
  | .ok t' => .next (s.linkReg.setPendingPC t')

/-- B (R500). -/
def execB (imm : BitVec 24) (s : State) : Result := s.branchTo .plain (s.branchTarget imm)

/-- BL (R501). -/
def execBl (imm : BitVec 24) (s : State) : Result := s.branchLink .plain (s.branchTarget imm)

/-- BX (R502). -/
def execBx (rm : RegNo) (s : State) : Result := s.branchTo .interwork (s.reg rm)

/-- BLX immediate (R503): it always enters Thumb state, so it raises before any write. -/
def execBlxImm (h : Bool) (imm : BitVec 24) (s : State) : Result :=
  s.raise (.unsupported (.thumbState (s.thumbTarget h imm)))

/-- BLX register (R504): the target is read before r14 is written. -/
def execBlxReg (rm : RegNo) (s : State) : Result :=
  s.guarded [(rm == 15#4, .blxPC)] (s.branchLink .interwork (s.reg rm))

end Sys2Proof.Machine
end

