-- ==== Sys2Proof/Machine/DataProcessing.lean ====
section
/-! DEFINITION. The sixteen data-processing opcodes in their three operand forms (R300 to R332). Each opcode is
said once, over its operands; a form evaluates the shifter, reads Rn and calls it (R307). -/

namespace Sys2Proof.Machine

open Sys2Proof.Config

/-! ### Shared operations -/

/-- `CPSR.V` of the stepping CPU. -/
def State.overflow (s : State) : Bool := flagV s.cpu.cpsr

/-- `DPWriteResult` (R305): `c` and `v` are the flags the opcode's policy gives (R303, R304). -/
def State.dpWrite (sf : Bool) (rd : RegNo) (r : Word) (c v : Bool) (s : State) : Result :=
  if rd = 15#4 then
    if sf then
      if hasSpsr s.mode then s.exceptionReturn r id else s.raise (.unpredictable .noSPSR)
    else s.branchTo .plain r
  else if sf then .next ((s.setReg rd r).setResultFlags r c v)
  else .next (s.setReg rd r)

/-- A logical opcode that writes Rd: C is the shifter carry-out, V is kept (R304). -/
def State.dpLogical (sf : Bool) (rd : RegNo) (r : Word) (carry : Bool) (s : State) : Result :=
  s.dpWrite sf rd r carry s.overflow

/-- An arithmetic opcode that writes Rd: C and V are those of `AddWithCarry` (R303). -/
def State.dpArith (sf : Bool) (rd : RegNo) (x : AddResult) (s : State) : Result :=
  s.dpWrite sf rd x.result x.carry x.overflow

/-- TST and TEQ: the flags of R304, no register written (R306). -/
def State.dpTest (r : Word) (carry : Bool) (s : State) : Result :=
  .next (s.setResultFlags r carry s.overflow)

/-- CMP and CMN: the flags of R303, no register written (R306). -/
def State.dpCompare (x : AddResult) (s : State) : Result :=
  .next (s.setResultFlags x.result x.carry x.overflow)

/-- The check of `DP_REGSHIFT` (R276) over the register fields the instruction uses; the SBZ field (Rn of MOV
and MVN, Rd of the tests) is not examined (R154, DEDUCED, log 11). -/
def regShiftChecks (used : List RegNo) : List (Bool × UnpredictableReason) :=
  [(used.contains 15#4, .regShiftPC)]

/-! ### AND (R310) -/

/-- AND on its operands (R310). -/
def opAnd (sf : Bool) (rd : RegNo) (a : Word) (b : Shifted) (s : State) : Result :=
  s.dpLogical sf rd (a &&& b.value) b.carry

/-- AND, immediate operand (R310). -/
def execAndImm (sf : Bool) (rn rd : RegNo) (o : ImmOp) (s : State) : Result :=
  opAnd sf rd (s.reg rn) (s.immOperand o) s

/-- AND, register shifted by an immediate (R310). -/
def execAndImmShift (sf : Bool) (rn rd : RegNo) (o : ShiftImmOp) (s : State) : Result :=
  opAnd sf rd (s.reg rn) (s.shiftImmOperand o) s

/-- AND, register shifted by a register (R310, R276). -/
def execAndRegShift (sf : Bool) (rn rd : RegNo) (o : ShiftRegOp) (s : State) : Result :=
  s.guarded (regShiftChecks [rd, rn, o.rm, o.rs]) (opAnd sf rd (s.reg rn) (s.shiftRegOperand o) s)

/-! ### EOR (R311) -/

/-- EOR on its operands (R311). -/
def opEor (sf : Bool) (rd : RegNo) (a : Word) (b : Shifted) (s : State) : Result :=
  s.dpLogical sf rd (a ^^^ b.value) b.carry

/-- EOR, immediate operand (R311). -/
def execEorImm (sf : Bool) (rn rd : RegNo) (o : ImmOp) (s : State) : Result :=
  opEor sf rd (s.reg rn) (s.immOperand o) s

/-- EOR, register shifted by an immediate (R311). -/
def execEorImmShift (sf : Bool) (rn rd : RegNo) (o : ShiftImmOp) (s : State) : Result :=
  opEor sf rd (s.reg rn) (s.shiftImmOperand o) s

/-- EOR, register shifted by a register (R311, R276). -/
def execEorRegShift (sf : Bool) (rn rd : RegNo) (o : ShiftRegOp) (s : State) : Result :=
  s.guarded (regShiftChecks [rd, rn, o.rm, o.rs]) (opEor sf rd (s.reg rn) (s.shiftRegOperand o) s)

/-! ### SUB (R312) -/

/-- SUB on its operands (R312). -/
def opSub (sf : Bool) (rd : RegNo) (a : Word) (b : Shifted) (s : State) : Result :=
  s.dpArith sf rd (addWithCarry a (~~~b.value) true)

/-- SUB, immediate operand (R312). -/
def execSubImm (sf : Bool) (rn rd : RegNo) (o : ImmOp) (s : State) : Result :=
  opSub sf rd (s.reg rn) (s.immOperand o) s

/-- SUB, register shifted by an immediate (R312). -/
def execSubImmShift (sf : Bool) (rn rd : RegNo) (o : ShiftImmOp) (s : State) : Result :=
  opSub sf rd (s.reg rn) (s.shiftImmOperand o) s

/-- SUB, register shifted by a register (R312, R276). -/
def execSubRegShift (sf : Bool) (rn rd : RegNo) (o : ShiftRegOp) (s : State) : Result :=
  s.guarded (regShiftChecks [rd, rn, o.rm, o.rs]) (opSub sf rd (s.reg rn) (s.shiftRegOperand o) s)

/-! ### RSB (R313) -/

/-- RSB on its operands (R313). -/
def opRsb (sf : Bool) (rd : RegNo) (a : Word) (b : Shifted) (s : State) : Result :=
  s.dpArith sf rd (addWithCarry b.value (~~~a) true)

/-- RSB, immediate operand (R313). -/
def execRsbImm (sf : Bool) (rn rd : RegNo) (o : ImmOp) (s : State) : Result :=
  opRsb sf rd (s.reg rn) (s.immOperand o) s

/-- RSB, register shifted by an immediate (R313). -/
def execRsbImmShift (sf : Bool) (rn rd : RegNo) (o : ShiftImmOp) (s : State) : Result :=
  opRsb sf rd (s.reg rn) (s.shiftImmOperand o) s

/-- RSB, register shifted by a register (R313, R276). -/
def execRsbRegShift (sf : Bool) (rn rd : RegNo) (o : ShiftRegOp) (s : State) : Result :=
  s.guarded (regShiftChecks [rd, rn, o.rm, o.rs]) (opRsb sf rd (s.reg rn) (s.shiftRegOperand o) s)

/-! ### ADD (R314) -/

/-- ADD on its operands (R314). -/
def opAdd (sf : Bool) (rd : RegNo) (a : Word) (b : Shifted) (s : State) : Result :=
  s.dpArith sf rd (addWithCarry a b.value false)

/-- ADD, immediate operand (R314). -/
def execAddImm (sf : Bool) (rn rd : RegNo) (o : ImmOp) (s : State) : Result :=
  opAdd sf rd (s.reg rn) (s.immOperand o) s

/-- ADD, register shifted by an immediate (R314). -/
def execAddImmShift (sf : Bool) (rn rd : RegNo) (o : ShiftImmOp) (s : State) : Result :=
  opAdd sf rd (s.reg rn) (s.shiftImmOperand o) s

/-- ADD, register shifted by a register (R314, R276). -/
def execAddRegShift (sf : Bool) (rn rd : RegNo) (o : ShiftRegOp) (s : State) : Result :=
  s.guarded (regShiftChecks [rd, rn, o.rm, o.rs]) (opAdd sf rd (s.reg rn) (s.shiftRegOperand o) s)

/-! ### ADC (R315) -/

/-- ADC on its operands (R315). -/
def opAdc (sf : Bool) (rd : RegNo) (a : Word) (b : Shifted) (s : State) : Result :=
  s.dpArith sf rd (addWithCarry a b.value s.carry)

/-- ADC, immediate operand (R315). -/
def execAdcImm (sf : Bool) (rn rd : RegNo) (o : ImmOp) (s : State) : Result :=
  opAdc sf rd (s.reg rn) (s.immOperand o) s

/-- ADC, register shifted by an immediate (R315). -/
def execAdcImmShift (sf : Bool) (rn rd : RegNo) (o : ShiftImmOp) (s : State) : Result :=
  opAdc sf rd (s.reg rn) (s.shiftImmOperand o) s

/-- ADC, register shifted by a register (R315, R276). -/
def execAdcRegShift (sf : Bool) (rn rd : RegNo) (o : ShiftRegOp) (s : State) : Result :=
  s.guarded (regShiftChecks [rd, rn, o.rm, o.rs]) (opAdc sf rd (s.reg rn) (s.shiftRegOperand o) s)

/-! ### SBC (R316) -/

/-- SBC on its operands (R316). -/
def opSbc (sf : Bool) (rd : RegNo) (a : Word) (b : Shifted) (s : State) : Result :=
  s.dpArith sf rd (addWithCarry a (~~~b.value) s.carry)

/-- SBC, immediate operand (R316). -/
def execSbcImm (sf : Bool) (rn rd : RegNo) (o : ImmOp) (s : State) : Result :=
  opSbc sf rd (s.reg rn) (s.immOperand o) s

/-- SBC, register shifted by an immediate (R316). -/
def execSbcImmShift (sf : Bool) (rn rd : RegNo) (o : ShiftImmOp) (s : State) : Result :=
  opSbc sf rd (s.reg rn) (s.shiftImmOperand o) s

/-- SBC, register shifted by a register (R316, R276). -/
def execSbcRegShift (sf : Bool) (rn rd : RegNo) (o : ShiftRegOp) (s : State) : Result :=
  s.guarded (regShiftChecks [rd, rn, o.rm, o.rs]) (opSbc sf rd (s.reg rn) (s.shiftRegOperand o) s)

/-! ### RSC (R317) -/

/-- RSC on its operands (R317). -/
def opRsc (sf : Bool) (rd : RegNo) (a : Word) (b : Shifted) (s : State) : Result :=
  s.dpArith sf rd (addWithCarry b.value (~~~a) s.carry)

/-- RSC, immediate operand (R317). -/
def execRscImm (sf : Bool) (rn rd : RegNo) (o : ImmOp) (s : State) : Result :=
  opRsc sf rd (s.reg rn) (s.immOperand o) s

/-- RSC, register shifted by an immediate (R317). -/
def execRscImmShift (sf : Bool) (rn rd : RegNo) (o : ShiftImmOp) (s : State) : Result :=
  opRsc sf rd (s.reg rn) (s.shiftImmOperand o) s

/-- RSC, register shifted by a register (R317, R276). -/
def execRscRegShift (sf : Bool) (rn rd : RegNo) (o : ShiftRegOp) (s : State) : Result :=
  s.guarded (regShiftChecks [rd, rn, o.rm, o.rs]) (opRsc sf rd (s.reg rn) (s.shiftRegOperand o) s)

/-! ### TST (R318) -/

/-- TST on its operands (R318). -/
def opTst (a : Word) (b : Shifted) (s : State) : Result :=
  s.dpTest (a &&& b.value) b.carry

/-- TST, immediate operand (R318). -/
def execTstImm (rn : RegNo) (o : ImmOp) (s : State) : Result :=
  opTst (s.reg rn) (s.immOperand o) s

/-- TST, register shifted by an immediate (R318). -/
def execTstImmShift (rn : RegNo) (o : ShiftImmOp) (s : State) : Result :=
  opTst (s.reg rn) (s.shiftImmOperand o) s

/-- TST, register shifted by a register (R318, R276). -/
def execTstRegShift (rn : RegNo) (o : ShiftRegOp) (s : State) : Result :=
  s.guarded (regShiftChecks [rn, o.rm, o.rs]) (opTst (s.reg rn) (s.shiftRegOperand o) s)

/-! ### TEQ (R319) -/

/-- TEQ on its operands (R319). -/
def opTeq (a : Word) (b : Shifted) (s : State) : Result :=
  s.dpTest (a ^^^ b.value) b.carry

/-- TEQ, immediate operand (R319). -/
def execTeqImm (rn : RegNo) (o : ImmOp) (s : State) : Result :=
  opTeq (s.reg rn) (s.immOperand o) s

/-- TEQ, register shifted by an immediate (R319). -/
def execTeqImmShift (rn : RegNo) (o : ShiftImmOp) (s : State) : Result :=
  opTeq (s.reg rn) (s.shiftImmOperand o) s

/-- TEQ, register shifted by a register (R319, R276). -/
def execTeqRegShift (rn : RegNo) (o : ShiftRegOp) (s : State) : Result :=
  s.guarded (regShiftChecks [rn, o.rm, o.rs]) (opTeq (s.reg rn) (s.shiftRegOperand o) s)

/-! ### CMP (R320) -/

/-- CMP on its operands (R320). -/
def opCmp (a : Word) (b : Shifted) (s : State) : Result :=
  s.dpCompare (addWithCarry a (~~~b.value) true)

/-- CMP, immediate operand (R320). -/
def execCmpImm (rn : RegNo) (o : ImmOp) (s : State) : Result :=
  opCmp (s.reg rn) (s.immOperand o) s

/-- CMP, register shifted by an immediate (R320). -/
def execCmpImmShift (rn : RegNo) (o : ShiftImmOp) (s : State) : Result :=
  opCmp (s.reg rn) (s.shiftImmOperand o) s

/-- CMP, register shifted by a register (R320, R276). -/
def execCmpRegShift (rn : RegNo) (o : ShiftRegOp) (s : State) : Result :=
  s.guarded (regShiftChecks [rn, o.rm, o.rs]) (opCmp (s.reg rn) (s.shiftRegOperand o) s)

/-! ### CMN (R321) -/

/-- CMN on its operands (R321). -/
def opCmn (a : Word) (b : Shifted) (s : State) : Result :=
  s.dpCompare (addWithCarry a b.value false)

/-- CMN, immediate operand (R321). -/
def execCmnImm (rn : RegNo) (o : ImmOp) (s : State) : Result :=
  opCmn (s.reg rn) (s.immOperand o) s

/-- CMN, register shifted by an immediate (R321). -/
def execCmnImmShift (rn : RegNo) (o : ShiftImmOp) (s : State) : Result :=
  opCmn (s.reg rn) (s.shiftImmOperand o) s

/-- CMN, register shifted by a register (R321, R276). -/
def execCmnRegShift (rn : RegNo) (o : ShiftRegOp) (s : State) : Result :=
  s.guarded (regShiftChecks [rn, o.rm, o.rs]) (opCmn (s.reg rn) (s.shiftRegOperand o) s)

/-! ### ORR (R322) -/

/-- ORR on its operands (R322). -/
def opOrr (sf : Bool) (rd : RegNo) (a : Word) (b : Shifted) (s : State) : Result :=
  s.dpLogical sf rd (a ||| b.value) b.carry

/-- ORR, immediate operand (R322). -/
def execOrrImm (sf : Bool) (rn rd : RegNo) (o : ImmOp) (s : State) : Result :=
  opOrr sf rd (s.reg rn) (s.immOperand o) s

/-- ORR, register shifted by an immediate (R322). -/
def execOrrImmShift (sf : Bool) (rn rd : RegNo) (o : ShiftImmOp) (s : State) : Result :=
  opOrr sf rd (s.reg rn) (s.shiftImmOperand o) s

/-- ORR, register shifted by a register (R322, R276). -/
def execOrrRegShift (sf : Bool) (rn rd : RegNo) (o : ShiftRegOp) (s : State) : Result :=
  s.guarded (regShiftChecks [rd, rn, o.rm, o.rs]) (opOrr sf rd (s.reg rn) (s.shiftRegOperand o) s)

/-! ### MOV (R323) -/

/-- MOV on its operand; Rn is not read (R323, R300). -/
def opMov (sf : Bool) (rd : RegNo) (b : Shifted) (s : State) : Result :=
  s.dpLogical sf rd (b.value) b.carry

/-- MOV, immediate operand (R323). -/
def execMovImm (sf : Bool) (rd : RegNo) (o : ImmOp) (s : State) : Result :=
  opMov sf rd (s.immOperand o) s

/-- MOV, register shifted by an immediate (R323). -/
def execMovImmShift (sf : Bool) (rd : RegNo) (o : ShiftImmOp) (s : State) : Result :=
  opMov sf rd (s.shiftImmOperand o) s

/-- MOV, register shifted by a register (R323, R276). -/
def execMovRegShift (sf : Bool) (rd : RegNo) (o : ShiftRegOp) (s : State) : Result :=
  s.guarded (regShiftChecks [rd, o.rm, o.rs]) (opMov sf rd (s.shiftRegOperand o) s)

/-! ### BIC (R324) -/

/-- BIC on its operands (R324). -/
def opBic (sf : Bool) (rd : RegNo) (a : Word) (b : Shifted) (s : State) : Result :=
  s.dpLogical sf rd (a &&& ~~~b.value) b.carry

/-- BIC, immediate operand (R324). -/
def execBicImm (sf : Bool) (rn rd : RegNo) (o : ImmOp) (s : State) : Result :=
  opBic sf rd (s.reg rn) (s.immOperand o) s

/-- BIC, register shifted by an immediate (R324). -/
def execBicImmShift (sf : Bool) (rn rd : RegNo) (o : ShiftImmOp) (s : State) : Result :=
  opBic sf rd (s.reg rn) (s.shiftImmOperand o) s

/-- BIC, register shifted by a register (R324, R276). -/
def execBicRegShift (sf : Bool) (rn rd : RegNo) (o : ShiftRegOp) (s : State) : Result :=
  s.guarded (regShiftChecks [rd, rn, o.rm, o.rs]) (opBic sf rd (s.reg rn) (s.shiftRegOperand o) s)

/-! ### MVN (R325) -/

/-- MVN on its operand; Rn is not read (R325, R300). -/
def opMvn (sf : Bool) (rd : RegNo) (b : Shifted) (s : State) : Result :=
  s.dpLogical sf rd (~~~b.value) b.carry

/-- MVN, immediate operand (R325). -/
def execMvnImm (sf : Bool) (rd : RegNo) (o : ImmOp) (s : State) : Result :=
  opMvn sf rd (s.immOperand o) s

/-- MVN, register shifted by an immediate (R325). -/
def execMvnImmShift (sf : Bool) (rd : RegNo) (o : ShiftImmOp) (s : State) : Result :=
  opMvn sf rd (s.shiftImmOperand o) s

/-- MVN, register shifted by a register (R325, R276). -/
def execMvnRegShift (sf : Bool) (rd : RegNo) (o : ShiftRegOp) (s : State) : Result :=
  s.guarded (regShiftChecks [rd, o.rm, o.rs]) (opMvn sf rd (s.shiftRegOperand o) s)

end Sys2Proof.Machine
end

