-- ==== Sys2Proof/Machine/LoadStore.lean ====
section
/-! DEFINITION. Single loads and stores, swap and preload (44_load_store.md): the word and unsigned-byte transfers
(R400 to R417, R432), the halfword, signed and doubleword transfers (R420 to R442), SWP and SWPB (R450, R451), PLD
(R455) and the `v4` holes (R456). Each operation is said once; a form gives it its index bits and its offset. -/

namespace Sys2Proof.Machine

open Sys2Proof.Config

/-! ### Shared operations, addressing mode 2 -/

/-- The Rd check of R404 for a byte load or LDRT. -/
def loadDestCheck (rd : RegNo) : List (Bool × UnpredictableReason) := [(rd == 15#4, .pcDestination)]

/-- The Rd check of R404 and R423 for a byte or halfword store. -/
def storeSourceCheck (rd : RegNo) : List (Bool × UnpredictableReason) := [(rd == 15#4, .pcSource)]

/-- LDR (R410, R407). -/
def State.loadWordForm (x : Index) (rn rd : RegNo) (o : Offset) (s : State) : Result :=
  if rd = 15#4 then s.loadPcTransfer (indexChecks x rn o) x rn o
  else s.loadTransfer (indexChecks x rn o) x rn rd o State.loadWord

/-- LDRT (R414, R432): LDR post-indexed, and Rd = 15 raises (R404). -/
def State.loadWordUser (u : Bool) (rn rd : RegNo) (o : Offset) (s : State) : Result :=
  let x : Index := ⟨false, u, true⟩
  s.loadTransfer (indexChecks x rn o ++ loadDestCheck rd) x rn rd o State.loadWord

/-- The byte of an LDRB, zero extended (R411). -/
def State.loadByte (a : Word) (s : State) : Access Word := (s.memRead8 a).map fun v => v.setWidth 32

/-- LDRB and LDRBT (R411, R415). -/
def State.loadByteForm (x : Index) (rn rd : RegNo) (o : Offset) (s : State) : Result :=
  s.loadTransfer (indexChecks x rn o ++ loadDestCheck rd) x rn rd o State.loadByte

/-- STR and STRT (R412, R416); Rd = 15 stores `PC + 8` (R408). -/
def State.storeWordForm (x : Index) (rn rd : RegNo) (o : Offset) (s : State) : Result :=
  s.storeTransfer (indexChecks x rn o) x rn o fun a s1 => s1.memWrite32 a (s.reg rd)

/-- STRB and STRBT (R413, R417). -/
def State.storeByteForm (x : Index) (rn rd : RegNo) (o : Offset) (s : State) : Result :=
  s.storeTransfer (indexChecks x rn o ++ storeSourceCheck rd) x rn o
    fun a s1 => s1.memWrite8 a (bits 0 8 (s.reg rd))

/-! ### Shared operations, addressing mode 3 -/

/-- The checks of R423 that do not depend on Rd. -/
def mode3Checks (x : Index) (rn : RegNo) (o : Offset) : List (Bool × UnpredictableReason) :=
  postIndexCheck x ++ indexChecks x rn o

/-- The unsigned halfword of LDRH (R425). -/
def State.loadHalf (a : Word) (s : State) : Access Word := (s.memRead16 a).map fun v => v.setWidth 32

/-- The signed halfword of LDRSH (R426). -/
def State.loadSignedHalf (a : Word) (s : State) : Access Word := (s.memRead16 a).map fun v => v.signExtend 32

/-- The signed byte of LDRSB (R427). -/
def State.loadSignedByte (a : Word) (s : State) : Access Word := (s.memRead8 a).map fun v => v.signExtend 32

/-- LDRH, LDRSH and LDRSB over their access (R423, R425 to R427). -/
def State.loadHalfForm (access : Word → State → Access Word) (x : Index) (rn rd : RegNo) (o : Offset)
    (s : State) : Result :=
  s.loadTransfer (mode3Checks x rn o ++ loadDestCheck rd) x rn rd o access

/-- STRH (R428). -/
def State.storeHalfForm (x : Index) (rn rd : RegNo) (o : Offset) (s : State) : Result :=
  s.storeTransfer (mode3Checks x rn o ++ storeSourceCheck rd) x rn o
    fun a s1 => s1.memWrite16 a (bits 0 16 (s.reg rd))

/-- LDRD (R440, R441): the words at addr and addr + 4 into Rd and Rd + 1. -/
def State.loadDoubleForm (x : Index) (rn rd : RegNo) (o : Offset) (s : State) : Result :=
  let addr := s.transferAddress x rn o
  s.guarded (mode3Checks x rn o ++ doubleChecks true x rn rd o addr) <|
    (s.memRead32 addr).finish fun v0 s1 =>
      (s1.memRead32 (addr + 4#32)).finish fun v1 s2 =>
        .next (s2.commitLoad x rn (s.offsetAddress x rn o)
          (fun t => (t.setReg rd v0).setReg (rd + 1#4) v1))

/-- STRD (R440, R442): Rd and Rd + 1 to addr and addr + 4; a `BusFault` on the second write leaves the first made. -/
def State.storeDoubleForm (x : Index) (rn rd : RegNo) (o : Offset) (s : State) : Result :=
  let addr := s.transferAddress x rn o
  s.guarded (mode3Checks x rn o ++ doubleChecks false x rn rd o addr) <|
    (s.memWrite32 addr (s.reg rd)).finish fun _ s1 =>
      (s1.memWrite32 (addr + 4#32) (s.reg (rd + 1#4))).finish fun _ s2 =>
        .next (s2.writeBack x rn (s.offsetAddress x rn o))

/-! ### Shared operations, swap (R450) -/

/-- The checks of SWP and SWPB (R450). -/
def swapChecks (rn rd rm : RegNo) : List (Bool × UnpredictableReason) :=
  [(rn == 15#4 || rd == 15#4 || rm == 15#4, .swapPC), (rn == rm || rn == rd, .swapOverlap)]

/-- The read, the write and the register write of a swap (R450, R451). -/
def State.swapForm (rn rd rm : RegNo) (load : Word → State → Access Word)
    (store : Word → State → Access Unit) (s : State) : Result :=
  s.guarded (swapChecks rn rd rm) <|
    (load (s.reg rn) s).finish fun v s1 =>
      (store (s.reg rn) s1).finish fun _ s2 => .next (s2.setReg rd v)

/-! ### Addressing mode 2, the instructions -/

/-- LDR, immediate offset, P = 1 (R410). -/
def execLdrImm (u w : Bool) (rn rd : RegNo) (off : BitVec 12) (s : State) : Result :=
  s.loadWordForm ⟨true, u, w⟩ rn rd (offset12 off)

/-- LDR, immediate offset, post-indexed (R410). -/
def execLdrImmPost (u : Bool) (rn rd : RegNo) (off : BitVec 12) (s : State) : Result :=
  s.loadWordForm ⟨false, u, false⟩ rn rd (offset12 off)

/-- LDR, scaled register offset, P = 1 (R410). -/
def execLdrReg (u w : Bool) (rn rd : RegNo) (o : ShiftImmOp) (s : State) : Result :=
  s.loadWordForm ⟨true, u, w⟩ rn rd (.scaled o)

/-- LDR, scaled register offset, post-indexed (R410). -/
def execLdrRegPost (u : Bool) (rn rd : RegNo) (o : ShiftImmOp) (s : State) : Result :=
  s.loadWordForm ⟨false, u, false⟩ rn rd (.scaled o)

/-- LDRT, immediate offset (R414, R432). -/
def execLdrtImm (u : Bool) (rn rd : RegNo) (off : BitVec 12) (s : State) : Result :=
  s.loadWordUser u rn rd (offset12 off)

/-- LDRT, scaled register offset (R414, R432). -/
def execLdrtReg (u : Bool) (rn rd : RegNo) (o : ShiftImmOp) (s : State) : Result :=
  s.loadWordUser u rn rd (.scaled o)

/-- LDRB, immediate offset, P = 1 (R411). -/
def execLdrbImm (u w : Bool) (rn rd : RegNo) (off : BitVec 12) (s : State) : Result :=
  s.loadByteForm ⟨true, u, w⟩ rn rd (offset12 off)

/-- LDRB, immediate offset, post-indexed (R411). -/
def execLdrbImmPost (u : Bool) (rn rd : RegNo) (off : BitVec 12) (s : State) : Result :=
  s.loadByteForm ⟨false, u, false⟩ rn rd (offset12 off)

/-- LDRB, scaled register offset, P = 1 (R411). -/
def execLdrbReg (u w : Bool) (rn rd : RegNo) (o : ShiftImmOp) (s : State) : Result :=
  s.loadByteForm ⟨true, u, w⟩ rn rd (.scaled o)

/-- LDRB, scaled register offset, post-indexed (R411). -/
def execLdrbRegPost (u : Bool) (rn rd : RegNo) (o : ShiftImmOp) (s : State) : Result :=
  s.loadByteForm ⟨false, u, false⟩ rn rd (.scaled o)

/-- LDRBT, immediate offset (R415, R432). -/
def execLdrbtImm (u : Bool) (rn rd : RegNo) (off : BitVec 12) (s : State) : Result :=
  s.loadByteForm ⟨false, u, true⟩ rn rd (offset12 off)

/-- LDRBT, scaled register offset (R415, R432). -/
def execLdrbtReg (u : Bool) (rn rd : RegNo) (o : ShiftImmOp) (s : State) : Result :=
  s.loadByteForm ⟨false, u, true⟩ rn rd (.scaled o)

/-- STR, immediate offset, P = 1 (R412). -/
def execStrImm (u w : Bool) (rn rd : RegNo) (off : BitVec 12) (s : State) : Result :=
  s.storeWordForm ⟨true, u, w⟩ rn rd (offset12 off)

/-- STR, immediate offset, post-indexed (R412). -/
def execStrImmPost (u : Bool) (rn rd : RegNo) (off : BitVec 12) (s : State) : Result :=
  s.storeWordForm ⟨false, u, false⟩ rn rd (offset12 off)

/-- STR, scaled register offset, P = 1 (R412). -/
def execStrReg (u w : Bool) (rn rd : RegNo) (o : ShiftImmOp) (s : State) : Result :=
  s.storeWordForm ⟨true, u, w⟩ rn rd (.scaled o)

/-- STR, scaled register offset, post-indexed (R412). -/
def execStrRegPost (u : Bool) (rn rd : RegNo) (o : ShiftImmOp) (s : State) : Result :=
  s.storeWordForm ⟨false, u, false⟩ rn rd (.scaled o)

/-- STRT, immediate offset (R416, R432). -/
def execStrtImm (u : Bool) (rn rd : RegNo) (off : BitVec 12) (s : State) : Result :=
  s.storeWordForm ⟨false, u, true⟩ rn rd (offset12 off)

/-- STRT, scaled register offset (R416, R432). -/
def execStrtReg (u : Bool) (rn rd : RegNo) (o : ShiftImmOp) (s : State) : Result :=
  s.storeWordForm ⟨false, u, true⟩ rn rd (.scaled o)

/-- STRB, immediate offset, P = 1 (R413). -/
def execStrbImm (u w : Bool) (rn rd : RegNo) (off : BitVec 12) (s : State) : Result :=
  s.storeByteForm ⟨true, u, w⟩ rn rd (offset12 off)

/-- STRB, immediate offset, post-indexed (R413). -/
def execStrbImmPost (u : Bool) (rn rd : RegNo) (off : BitVec 12) (s : State) : Result :=
  s.storeByteForm ⟨false, u, false⟩ rn rd (offset12 off)

/-- STRB, scaled register offset, P = 1 (R413). -/
def execStrbReg (u w : Bool) (rn rd : RegNo) (o : ShiftImmOp) (s : State) : Result :=
  s.storeByteForm ⟨true, u, w⟩ rn rd (.scaled o)

/-- STRB, scaled register offset, post-indexed (R413). -/
def execStrbRegPost (u : Bool) (rn rd : RegNo) (o : ShiftImmOp) (s : State) : Result :=
  s.storeByteForm ⟨false, u, false⟩ rn rd (.scaled o)

/-- STRBT, immediate offset (R417, R432). -/
def execStrbtImm (u : Bool) (rn rd : RegNo) (off : BitVec 12) (s : State) : Result :=
  s.storeByteForm ⟨false, u, true⟩ rn rd (offset12 off)

/-- STRBT, scaled register offset (R417, R432). -/
def execStrbtReg (u : Bool) (rn rd : RegNo) (o : ShiftImmOp) (s : State) : Result :=
  s.storeByteForm ⟨false, u, true⟩ rn rd (.scaled o)

/-! ### Addressing mode 3, the instructions -/

/-- STRH, immediate offset (R428). -/
def execStrhImm (p u w : Bool) (rn rd : RegNo) (off : BitVec 8) (s : State) : Result :=
  s.storeHalfForm ⟨p, u, w⟩ rn rd (offset8Imm off)

/-- STRH, register offset (R428). -/
def execStrhReg (p u w : Bool) (rn rd rm : RegNo) (s : State) : Result :=
  s.storeHalfForm ⟨p, u, w⟩ rn rd (.reg rm)

/-- LDRH, immediate offset (R425). -/
def execLdrhImm (p u w : Bool) (rn rd : RegNo) (off : BitVec 8) (s : State) : Result :=
  s.loadHalfForm State.loadHalf ⟨p, u, w⟩ rn rd (offset8Imm off)

/-- LDRH, register offset (R425). -/
def execLdrhReg (p u w : Bool) (rn rd rm : RegNo) (s : State) : Result :=
  s.loadHalfForm State.loadHalf ⟨p, u, w⟩ rn rd (.reg rm)

/-- LDRSB, immediate offset (R427). -/
def execLdrsbImm (p u w : Bool) (rn rd : RegNo) (off : BitVec 8) (s : State) : Result :=
  s.loadHalfForm State.loadSignedByte ⟨p, u, w⟩ rn rd (offset8Imm off)

/-- LDRSB, register offset (R427). -/
def execLdrsbReg (p u w : Bool) (rn rd rm : RegNo) (s : State) : Result :=
  s.loadHalfForm State.loadSignedByte ⟨p, u, w⟩ rn rd (.reg rm)

/-- LDRSH, immediate offset (R426). -/
def execLdrshImm (p u w : Bool) (rn rd : RegNo) (off : BitVec 8) (s : State) : Result :=
  s.loadHalfForm State.loadSignedHalf ⟨p, u, w⟩ rn rd (offset8Imm off)

/-- LDRSH, register offset (R426). -/
def execLdrshReg (p u w : Bool) (rn rd rm : RegNo) (s : State) : Result :=
  s.loadHalfForm State.loadSignedHalf ⟨p, u, w⟩ rn rd (.reg rm)

/-- LDRD, immediate offset (R441). -/
def execLdrdImm (p u w : Bool) (rn rd : RegNo) (off : BitVec 8) (s : State) : Result :=
  s.loadDoubleForm ⟨p, u, w⟩ rn rd (offset8Imm off)

/-- LDRD, register offset (R441). -/
def execLdrdReg (p u w : Bool) (rn rd rm : RegNo) (s : State) : Result :=
  s.loadDoubleForm ⟨p, u, w⟩ rn rd (.reg rm)

/-- STRD, immediate offset (R442). -/
def execStrdImm (p u w : Bool) (rn rd : RegNo) (off : BitVec 8) (s : State) : Result :=
  s.storeDoubleForm ⟨p, u, w⟩ rn rd (offset8Imm off)

/-- STRD, register offset (R442). -/
def execStrdReg (p u w : Bool) (rn rd rm : RegNo) (s : State) : Result :=
  s.storeDoubleForm ⟨p, u, w⟩ rn rd (.reg rm)

/-! ### Swap, preload and the `v4` holes -/

/-- SWP (R450): a rotated read, an aligned write, in one step. -/
def execSwp (rn rd rm : RegNo) (s : State) : Result :=
  s.swapForm rn rd rm State.loadWord fun a s1 => s1.memWrite32 a (s.reg rm)

/-- SWPB (R451). -/
def execSwpb (rn rd rm : RegNo) (s : State) : Result :=
  s.swapForm rn rd rm State.loadByte fun a s1 => s1.memWrite8 a (bits 0 8 (s.reg rm))

/-- PLD, immediate offset (R455): no bus access, no register write, nothing raised. -/
def execPldImm (_u : Bool) (_rn : RegNo) (_off : BitVec 12) (s : State) : Result := .next s

/-- PLD, scaled register offset (R455). -/
def execPldReg (_u : Bool) (_rn : RegNo) (_o : ShiftImmOp) (s : State) : Result := .next s

/-- The `v4` extra load/store hole with SH = 10 (R456). -/
def execUnpredLsx10 (_word : Word) (s : State) : Result := s.raise (.unpredictable .extraLoadStoreV4)

/-- The `v4` extra load/store hole with SH = 11 (R456). -/
def execUnpredLsx11 (_word : Word) (s : State) : Result := s.raise (.unpredictable .extraLoadStoreV4)

end Sys2Proof.Machine
end

