-- ==== Sys2Proof/Machine/MiscArith.lean ====
section
/-! DEFINITION. CLZ and the saturating additions and subtractions of `v5` (R560 to R565). -/

namespace Sys2Proof.Machine

open Sys2Proof.Config

/-- The check of R560 and R561 over the register fields the instruction uses. -/
def pcOperandCheck (used : List RegNo) : List (Bool × UnpredictableReason) := [(used.contains 15#4, .pcOperand)]

/-- `x[Rd] <- r; if q then CPSR.Q <- 1` (R561 to R565). -/
def State.saturateWrite (rd : RegNo) (r : Word) (q : Bool) (s : State) : Result :=
  .next ((s.setReg rd r).stickQ q)

/-- `(d, q1)` of QDADD and QDSUB: the doubled operand, saturated (R564, R565). -/
def doubled (v : Word) : Word × Bool := signedSat32 (2 * v.toInt)

/-- CLZ (R560). -/
def execClz (rd rm : RegNo) (s : State) : Result :=
  s.guarded (pcOperandCheck [rd, rm]) <|
    .next (s.setReg rd (BitVec.ofNat 32 (leadingZeros (s.reg rm))))

/-- QADD (R562). -/
def execQadd (rn rd rm : RegNo) (s : State) : Result :=
  let x := signedSat32 ((s.reg rm).toInt + (s.reg rn).toInt)
  s.guarded (pcOperandCheck [rn, rd, rm]) (s.saturateWrite rd x.1 x.2)

/-- QSUB (R563). -/
def execQsub (rn rd rm : RegNo) (s : State) : Result :=
  let x := signedSat32 ((s.reg rm).toInt - (s.reg rn).toInt)
  s.guarded (pcOperandCheck [rn, rd, rm]) (s.saturateWrite rd x.1 x.2)

/-- QDADD (R564). -/
def execQdadd (rn rd rm : RegNo) (s : State) : Result :=
  let d := doubled (s.reg rn)
  let x := signedSat32 ((s.reg rm).toInt + d.1.toInt)
  s.guarded (pcOperandCheck [rn, rd, rm]) (s.saturateWrite rd x.1 (d.2 || x.2))

/-- QDSUB (R565). -/
def execQdsub (rn rd rm : RegNo) (s : State) : Result :=
  let d := doubled (s.reg rn)
  let x := signedSat32 ((s.reg rm).toInt - d.1.toInt)
  s.guarded (pcOperandCheck [rn, rd, rm]) (s.saturateWrite rd x.1 (d.2 || x.2))

end Sys2Proof.Machine
end

