-- ==== Sys2Proof/Machine/Multiply.lean ====
section
/-! DEFINITION. The multiply instructions (R350 to R365). -/

namespace Sys2Proof.Machine

open Sys2Proof.Config

/-! ### Shared operations -/

/-- The first row of R350, over the register fields the instruction uses. -/
def mulChecks (used : List RegNo) : List (Bool × UnpredictableReason) :=
  [(used.contains 15#4, .mulPC)]

/-- The overlap row of R350 for MUL and MLA. -/
def mulOverlapChecks (rd rm : RegNo) : List (Bool × UnpredictableReason) :=
  [(rd == rm, .mulOverlap)]

/-- The overlap row of R350 for the long multiplies. -/
def longOverlapChecks (hi lo rm : RegNo) : List (Bool × UnpredictableReason) :=
  [(hi == lo || hi == rm || lo == rm, .mulOverlap)]

/-- A `draw` taken: the next free value has another number. -/
def State.afterDraws (n : Nat) (s : State) : State := { s with draws := s.draws + n }

/-- The flags of MUL and MLA (R352): C is a free value on `v4` (log 6) and unchanged on `v5`; V is unchanged. -/
def State.mulFlags (r : Word) (s : State) : State :=
  match s.variant with
  | .v4 => (s.setResultFlags r (freeFlag s.draws) (flagV s.cpu.cpsr)).afterDraws 1
  | .v5 => s.setResultFlags r (flagC s.cpu.cpsr) (flagV s.cpu.cpsr)

/-- The flags of the long multiplies (R352): C and V are free values on `v4` (log 6), unchanged on `v5`. -/
def State.longFlags (r : BitVec 64) (s : State) : State :=
  match s.variant with
  | .v4 =>
    (s.setNZCV (r.getLsbD 63) (r == 0#64) (freeFlag s.draws) (freeFlag (s.draws + 1))).afterDraws 2
  | .v5 => s.setNZCV (r.getLsbD 63) (r == 0#64) (flagC s.cpu.cpsr) (flagV s.cpu.cpsr)

/-- The end of MUL and MLA: Rd, then the flags when S = 1. -/
def State.mulWrite (sf : Bool) (rd : RegNo) (r : Word) (s : State) : Result :=
  let s1 := s.setReg rd r
  .next (if sf then s1.mulFlags r else s1)

/-- `x[RdLo] <- result64[31:0]; x[RdHi] <- result64[63:32]`. -/
def State.setPair (hi lo : RegNo) (r : BitVec 64) (s : State) : State :=
  (s.setReg lo (r.extractLsb' 0 32)).setReg hi (r.extractLsb' 32 32)

/-- The end of a long multiply: the pair, then the flags when S = 1. -/
def State.longWrite (sf : Bool) (hi lo : RegNo) (r : BitVec 64) (s : State) : Result :=
  let s1 := s.setPair hi lo r
  .next (if sf then s1.longFlags r else s1)

/-- `uint(x[RdHi] : x[RdLo])`. -/
def State.pairValue (hi lo : RegNo) (s : State) : Nat := (s.reg hi ++ s.reg lo).toNat

/-- The end of SMLA<x><y> and SMLAW<y> (R360): the wrapped sum, and Q when the exact sum does not fit. -/
def State.accumulateWrite (rd : RegNo) (sum : Int) (s : State) : Result :=
  .next ((s.setReg rd (BitVec.ofInt 32 sum)).stickQ (outOfRange32 sum))

/-! ### The instructions -/

/-- MUL (R351). -/
def execMul (sf : Bool) (rd rs rm : RegNo) (s : State) : Result :=
  s.guarded (mulChecks [rd, rs, rm] ++ mulOverlapChecks rd rm) <|
    s.mulWrite sf rd (BitVec.ofNat 32 ((s.reg rm).toNat * (s.reg rs).toNat))

/-- MLA (R353). -/
def execMla (sf : Bool) (rd rn rs rm : RegNo) (s : State) : Result :=
  s.guarded (mulChecks [rd, rn, rs, rm] ++ mulOverlapChecks rd rm) <|
    s.mulWrite sf rd (BitVec.ofNat 32 ((s.reg rm).toNat * (s.reg rs).toNat + (s.reg rn).toNat))

/-- UMULL (R354). -/
def execUmull (sf : Bool) (hi lo rs rm : RegNo) (s : State) : Result :=
  s.guarded (mulChecks [hi, lo, rs, rm] ++ longOverlapChecks hi lo rm) <|
    s.longWrite sf hi lo (BitVec.ofNat 64 ((s.reg rm).toNat * (s.reg rs).toNat))

/-- UMLAL (R355). -/
def execUmlal (sf : Bool) (hi lo rs rm : RegNo) (s : State) : Result :=
  s.guarded (mulChecks [hi, lo, rs, rm] ++ longOverlapChecks hi lo rm) <|
    s.longWrite sf hi lo (BitVec.ofNat 64 ((s.reg rm).toNat * (s.reg rs).toNat + s.pairValue hi lo))

/-- SMULL (R356). -/
def execSmull (sf : Bool) (hi lo rs rm : RegNo) (s : State) : Result :=
  s.guarded (mulChecks [hi, lo, rs, rm] ++ longOverlapChecks hi lo rm) <|
    s.longWrite sf hi lo (BitVec.ofInt 64 ((s.reg rm).toInt * (s.reg rs).toInt))

/-- SMLAL (R357). -/
def execSmlal (sf : Bool) (hi lo rs rm : RegNo) (s : State) : Result :=
  s.guarded (mulChecks [hi, lo, rs, rm] ++ longOverlapChecks hi lo rm) <|
    s.longWrite sf hi lo (BitVec.ofInt 64 ((s.reg rm).toInt * (s.reg rs).toInt + s.pairValue hi lo))

/-- SMLA<x><y> (R361). -/
def execSmlaxy (rd rn rs : RegNo) (y x : Half) (rm : RegNo) (s : State) : Result :=
  s.guarded (mulChecks [rd, rn, rs, rm]) <|
    s.accumulateWrite rd (halfValue x (s.reg rm) * halfValue y (s.reg rs) + (s.reg rn).toInt)

/-- SMUL<x><y> (R362). -/
def execSmulxy (rd rs : RegNo) (y x : Half) (rm : RegNo) (s : State) : Result :=
  s.guarded (mulChecks [rd, rs, rm]) <|
    .next (s.setReg rd (BitVec.ofInt 32 (halfValue x (s.reg rm) * halfValue y (s.reg rs))))

/-- `floor((sint(x[Rm]) * sint(Half(x[Rs], y))) / 2^16)` (R363, R364): `Int` division by a positive number
rounds down. -/
def State.wideProduct (rm rs : RegNo) (y : Half) (s : State) : Int :=
  ((s.reg rm).toInt * halfValue y (s.reg rs)) / 65536

/-- SMLAW<y> (R363). -/
def execSmlawy (rd rn rs : RegNo) (y : Half) (rm : RegNo) (s : State) : Result :=
  s.guarded (mulChecks [rd, rn, rs, rm]) <|
    s.accumulateWrite rd (s.wideProduct rm rs y + (s.reg rn).toInt)

/-- SMULW<y> (R364). -/
def execSmulwy (rd rs : RegNo) (y : Half) (rm : RegNo) (s : State) : Result :=
  s.guarded (mulChecks [rd, rs, rm]) <|
    .next (s.setReg rd (BitVec.ofInt 32 (s.wideProduct rm rs y)))

/-- SMLAL<x><y> (R365). -/
def execSmlalxy (hi lo rs : RegNo) (y x : Half) (rm : RegNo) (s : State) : Result :=
  s.guarded (mulChecks [hi, lo, rs, rm] ++ [(hi == lo, .mulOverlap)]) <|
    .next (s.setPair hi lo
      (BitVec.ofInt 64 (halfValue x (s.reg rm) * halfValue y (s.reg rs) + s.pairValue hi lo)))

end Sys2Proof.Machine
end

