-- ==== Sys2Proof/Machine/StatusRegister.lean ====
section
/-! DEFINITION. MRS and MSR (R530 to R537). -/

namespace Sys2Proof.Machine

open Sys2Proof.Config

/-- A write of the named status word (R532, R533). -/
def State.msrWrite (r : Psr) (mask : BitVec 4) (v : Word) (s : State) : Result :=
  match r with
  | .cpsr => s.cpsrWrite v mask
  | .spsr => s.spsrWrite v mask

/-- MRS (R530). -/
def execMrs (r : Psr) (rd : RegNo) (s : State) : Result :=
  s.guarded [(rd == 15#4, .pcDestination), (r == .spsr && !hasSpsr s.mode, .noSPSR)] <|
    .next (s.setReg rd (match r with | .cpsr => s.cpu.cpsr | .spsr => s.cpu.spsr))

/-- MSR, immediate operand (R532). -/
def execMsrImm (r : Psr) (mask : BitVec 4) (o : ImmOp) (s : State) : Result :=
  s.msrWrite r mask (immValue o)

/-- MSR, register operand (R533). -/
def execMsrReg (r : Psr) (mask : BitVec 4) (rm : RegNo) (s : State) : Result :=
  s.guarded [(rm == 15#4, .pcSource)] (s.msrWrite r mask (s.reg rm))

end Sys2Proof.Machine
end

