-- ==== Sys2Proof/Machine/System.lean ====
section
/-! DEFINITION. SWI, BKPT, the coprocessor rows, the UNDEFINED rows, the NV words and the unconditional words
(R590 to R604). -/

namespace Sys2Proof.Machine

open Sys2Proof.Config

/-! ### Shared operations -/

/-- A coprocessor instruction (R596): under both values of `EXC_MODEL`, no state is read or written. -/
def State.coprocessor (cp : BitVec 4) (s : State) : Result := s.raise (.unsupported (.coprocessor cp))

/-- An UNDEFINED word (R600). -/
def State.undefinedWord (word : Word) (s : State) : Result := s.exceptionOr .undefined (.undefined word)

/-! ### Software interrupt and breakpoint -/

/-- SWI (R590). -/
def execSwi (imm : BitVec 24) (s : State) : Result := s.exceptionOr .swi (.softwareInterrupt imm)

/-- BKPT (R591): the condition must be AL; a prefetch abort under `EXC_MODEL = architectural`. -/
def execBkpt (c : Cond) (immHi : BitVec 12) (immLo : BitVec 4) (s : State) : Result :=
  s.guarded [(c != .al, .bkptCondition)] (s.exceptionOr .prefetchAbort (.breakpoint (immHi ++ immLo)))

/-! ### Coprocessor instructions -/

/-- CDP (R596): `Unsupported(Coprocessor)`. -/
def execCdp (cp : BitVec 4) (s : State) : Result := s.coprocessor cp

/-- MCR (R596): `Unsupported(Coprocessor)`. -/
def execMcr (cp : BitVec 4) (s : State) : Result := s.coprocessor cp

/-- MRC (R596): `Unsupported(Coprocessor)`. -/
def execMrc (cp : BitVec 4) (s : State) : Result := s.coprocessor cp

/-- STC on `v4` (R596): `Unsupported(Coprocessor)` without base write-back. -/
def execStcV4 (cp : BitVec 4) (s : State) : Result := s.coprocessor cp

/-- LDC on `v4` (R596): `Unsupported(Coprocessor)` without base write-back. -/
def execLdcV4 (cp : BitVec 4) (s : State) : Result := s.coprocessor cp

/-- STC on `v5`, P = 1 (R596): `Unsupported(Coprocessor)` without base write-back. -/
def execStcPre (cp : BitVec 4) (s : State) : Result := s.coprocessor cp

/-- STC on `v5`, P = 0, U = 1 (R596): `Unsupported(Coprocessor)` without base write-back. -/
def execStcPostUp (cp : BitVec 4) (s : State) : Result := s.coprocessor cp

/-- STC on `v5`, P = U = N = 0 (R596): `Unsupported(Coprocessor)` without base write-back. -/
def execStcPostDown (cp : BitVec 4) (s : State) : Result := s.coprocessor cp

/-- STC on `v5`, P = U = 0, N = W = 1 (R596): `Unsupported(Coprocessor)` without base write-back. -/
def execStcPostDownLong (cp : BitVec 4) (s : State) : Result := s.coprocessor cp

/-- LDC on `v5`, P = 1 (R596): `Unsupported(Coprocessor)` without base write-back. -/
def execLdcPre (cp : BitVec 4) (s : State) : Result := s.coprocessor cp

/-- LDC on `v5`, P = 0, U = 1 (R596): `Unsupported(Coprocessor)` without base write-back. -/
def execLdcPostUp (cp : BitVec 4) (s : State) : Result := s.coprocessor cp

/-- LDC on `v5`, P = U = N = 0 (R596): `Unsupported(Coprocessor)` without base write-back. -/
def execLdcPostDown (cp : BitVec 4) (s : State) : Result := s.coprocessor cp

/-- LDC on `v5`, P = U = 0, N = W = 1 (R596): `Unsupported(Coprocessor)` without base write-back. -/
def execLdcPostDownLong (cp : BitVec 4) (s : State) : Result := s.coprocessor cp

/-- MCRR (R596): `Unsupported(Coprocessor)`. -/
def execMcrr (cp : BitVec 4) (s : State) : Result := s.coprocessor cp

/-- MRRC (R596): `Unsupported(Coprocessor)`. -/
def execMrrc (cp : BitVec 4) (s : State) : Result := s.coprocessor cp

/-- CDP2 (R596): `Unsupported(Coprocessor)`. -/
def execCdp2 (cp : BitVec 4) (s : State) : Result := s.coprocessor cp

/-- MCR2 (R596): `Unsupported(Coprocessor)`. -/
def execMcr2 (cp : BitVec 4) (s : State) : Result := s.coprocessor cp

/-- MRC2 (R596): `Unsupported(Coprocessor)`. -/
def execMrc2 (cp : BitVec 4) (s : State) : Result := s.coprocessor cp

/-- STC2 (R596): `Unsupported(Coprocessor)` without base write-back. -/
def execStc2 (cp : BitVec 4) (s : State) : Result := s.coprocessor cp

/-- LDC2 (R596): `Unsupported(Coprocessor)` without base write-back. -/
def execLdc2 (cp : BitVec 4) (s : State) : Result := s.coprocessor cp

/-! ### UNDEFINED words -/

/-- The UNDEFINED row `undefMedia` (R195, R600). -/
def execUndefMedia (word : Word) (s : State) : Result := s.undefinedWord word

/-- The UNDEFINED row `undefMsrImm` (R195, R600). -/
def execUndefMsrImm (word : Word) (s : State) : Result := s.undefinedWord word

/-- The UNDEFINED row `undefMul` (R195, R600). -/
def execUndefMul (word : Word) (s : State) : Result := s.undefinedWord word

/-- The UNDEFINED row `undefSwap21` (R195, R600). -/
def execUndefSwap21 (word : Word) (s : State) : Result := s.undefinedWord word

/-- The UNDEFINED row `undefSwap20` (R195, R600). -/
def execUndefSwap20 (word : Word) (s : State) : Result := s.undefinedWord word

/-- The UNDEFINED row `undefSwap23` (R195, R600). -/
def execUndefSwap23 (word : Word) (s : State) : Result := s.undefinedWord word

/-- The UNDEFINED row `undefMisc` (R195, R600). -/
def execUndefMisc (word : Word) (s : State) : Result := s.undefinedWord word

/-! ### The unconditional space -/

/-- A word with cond = 1111 on `v4` (R602). -/
def execNvV4 (_word : Word) (s : State) : Result :=
  match s.params.nvV4 with
  | .fault => s.raise (.unpredictable .nvCondition)
  | .never => .next s

/-- An UNPREDICTABLE word of the unconditional space on `v5` (R603). -/
def execUnpredUncond (_word : Word) (s : State) : Result := s.raise (.unpredictable .unconditionalSpace)

end Sys2Proof.Machine
end

