-- ==== Sys2Proof/Machine/Dispatch.lean ====
section
/-! DEFINITION. The dispatch: one arm per constructor of Instr (R230, `Execute`). The condition is checked by the
step before it (R230, R233); only BKPT looks at its condition field (R591). -/

namespace Sys2Proof.Machine

def exec (i : Instr) (s : State) : Host.Outcome State Fault Refusal :=
  match i with
  | .andImm _ sf rn rd o => Sys2Proof.Machine.execAndImm sf rn rd o s
  | .andImmShift _ sf rn rd o => Sys2Proof.Machine.execAndImmShift sf rn rd o s
  | .andRegShift _ sf rn rd o => Sys2Proof.Machine.execAndRegShift sf rn rd o s
  | .eorImm _ sf rn rd o => Sys2Proof.Machine.execEorImm sf rn rd o s
  | .eorImmShift _ sf rn rd o => Sys2Proof.Machine.execEorImmShift sf rn rd o s
  | .eorRegShift _ sf rn rd o => Sys2Proof.Machine.execEorRegShift sf rn rd o s
  | .subImm _ sf rn rd o => Sys2Proof.Machine.execSubImm sf rn rd o s
  | .subImmShift _ sf rn rd o => Sys2Proof.Machine.execSubImmShift sf rn rd o s
  | .subRegShift _ sf rn rd o => Sys2Proof.Machine.execSubRegShift sf rn rd o s
  | .rsbImm _ sf rn rd o => Sys2Proof.Machine.execRsbImm sf rn rd o s
  | .rsbImmShift _ sf rn rd o => Sys2Proof.Machine.execRsbImmShift sf rn rd o s
  | .rsbRegShift _ sf rn rd o => Sys2Proof.Machine.execRsbRegShift sf rn rd o s
  | .addImm _ sf rn rd o => Sys2Proof.Machine.execAddImm sf rn rd o s
  | .addImmShift _ sf rn rd o => Sys2Proof.Machine.execAddImmShift sf rn rd o s
  | .addRegShift _ sf rn rd o => Sys2Proof.Machine.execAddRegShift sf rn rd o s
  | .adcImm _ sf rn rd o => Sys2Proof.Machine.execAdcImm sf rn rd o s
  | .adcImmShift _ sf rn rd o => Sys2Proof.Machine.execAdcImmShift sf rn rd o s
  | .adcRegShift _ sf rn rd o => Sys2Proof.Machine.execAdcRegShift sf rn rd o s
  | .sbcImm _ sf rn rd o => Sys2Proof.Machine.execSbcImm sf rn rd o s
  | .sbcImmShift _ sf rn rd o => Sys2Proof.Machine.execSbcImmShift sf rn rd o s
  | .sbcRegShift _ sf rn rd o => Sys2Proof.Machine.execSbcRegShift sf rn rd o s
  | .rscImm _ sf rn rd o => Sys2Proof.Machine.execRscImm sf rn rd o s
  | .rscImmShift _ sf rn rd o => Sys2Proof.Machine.execRscImmShift sf rn rd o s
  | .rscRegShift _ sf rn rd o => Sys2Proof.Machine.execRscRegShift sf rn rd o s
  | .tstImm _ rn _ o => Sys2Proof.Machine.execTstImm rn o s
  | .tstImmShift _ rn _ o => Sys2Proof.Machine.execTstImmShift rn o s
  | .tstRegShift _ rn _ o => Sys2Proof.Machine.execTstRegShift rn o s
  | .teqImm _ rn _ o => Sys2Proof.Machine.execTeqImm rn o s
  | .teqImmShift _ rn _ o => Sys2Proof.Machine.execTeqImmShift rn o s
  | .teqRegShift _ rn _ o => Sys2Proof.Machine.execTeqRegShift rn o s
  | .cmpImm _ rn _ o => Sys2Proof.Machine.execCmpImm rn o s
  | .cmpImmShift _ rn _ o => Sys2Proof.Machine.execCmpImmShift rn o s
  | .cmpRegShift _ rn _ o => Sys2Proof.Machine.execCmpRegShift rn o s
  | .cmnImm _ rn _ o => Sys2Proof.Machine.execCmnImm rn o s
  | .cmnImmShift _ rn _ o => Sys2Proof.Machine.execCmnImmShift rn o s
  | .cmnRegShift _ rn _ o => Sys2Proof.Machine.execCmnRegShift rn o s
  | .orrImm _ sf rn rd o => Sys2Proof.Machine.execOrrImm sf rn rd o s
  | .orrImmShift _ sf rn rd o => Sys2Proof.Machine.execOrrImmShift sf rn rd o s
  | .orrRegShift _ sf rn rd o => Sys2Proof.Machine.execOrrRegShift sf rn rd o s
  | .movImm _ sf _ rd o => Sys2Proof.Machine.execMovImm sf rd o s
  | .movImmShift _ sf _ rd o => Sys2Proof.Machine.execMovImmShift sf rd o s
  | .movRegShift _ sf _ rd o => Sys2Proof.Machine.execMovRegShift sf rd o s
  | .bicImm _ sf rn rd o => Sys2Proof.Machine.execBicImm sf rn rd o s
  | .bicImmShift _ sf rn rd o => Sys2Proof.Machine.execBicImmShift sf rn rd o s
  | .bicRegShift _ sf rn rd o => Sys2Proof.Machine.execBicRegShift sf rn rd o s
  | .mvnImm _ sf _ rd o => Sys2Proof.Machine.execMvnImm sf rd o s
  | .mvnImmShift _ sf _ rd o => Sys2Proof.Machine.execMvnImmShift sf rd o s
  | .mvnRegShift _ sf _ rd o => Sys2Proof.Machine.execMvnRegShift sf rd o s
  | .mul _ sf rd rs rm => Sys2Proof.Machine.execMul sf rd rs rm s
  | .mla _ sf rd rn rs rm => Sys2Proof.Machine.execMla sf rd rn rs rm s
  | .umull _ sf hi lo rs rm => Sys2Proof.Machine.execUmull sf hi lo rs rm s
  | .umlal _ sf hi lo rs rm => Sys2Proof.Machine.execUmlal sf hi lo rs rm s
  | .smull _ sf hi lo rs rm => Sys2Proof.Machine.execSmull sf hi lo rs rm s
  | .smlal _ sf hi lo rs rm => Sys2Proof.Machine.execSmlal sf hi lo rs rm s
  | .smlaxy _ rd rn rs y x rm => Sys2Proof.Machine.execSmlaxy rd rn rs y x rm s
  | .smlawy _ rd rn rs y rm => Sys2Proof.Machine.execSmlawy rd rn rs y rm s
  | .smulwy _ rd rs y rm => Sys2Proof.Machine.execSmulwy rd rs y rm s
  | .smlalxy _ hi lo rs y x rm => Sys2Proof.Machine.execSmlalxy hi lo rs y x rm s
  | .smulxy _ rd rs y x rm => Sys2Proof.Machine.execSmulxy rd rs y x rm s
  | .swp _ rn rd rm => Sys2Proof.Machine.execSwp rn rd rm s
  | .swpb _ rn rd rm => Sys2Proof.Machine.execSwpb rn rd rm s
  | .strhImm _ p u w rn rd off => Sys2Proof.Machine.execStrhImm p u w rn rd off s
  | .strhReg _ p u w rn rd rm => Sys2Proof.Machine.execStrhReg p u w rn rd rm s
  | .ldrhImm _ p u w rn rd off => Sys2Proof.Machine.execLdrhImm p u w rn rd off s
  | .ldrhReg _ p u w rn rd rm => Sys2Proof.Machine.execLdrhReg p u w rn rd rm s
  | .ldrsbImm _ p u w rn rd off => Sys2Proof.Machine.execLdrsbImm p u w rn rd off s
  | .ldrsbReg _ p u w rn rd rm => Sys2Proof.Machine.execLdrsbReg p u w rn rd rm s
  | .ldrshImm _ p u w rn rd off => Sys2Proof.Machine.execLdrshImm p u w rn rd off s
  | .ldrshReg _ p u w rn rd rm => Sys2Proof.Machine.execLdrshReg p u w rn rd rm s
  | .ldrdImm _ p u w rn rd off => Sys2Proof.Machine.execLdrdImm p u w rn rd off s
  | .ldrdReg _ p u w rn rd rm => Sys2Proof.Machine.execLdrdReg p u w rn rd rm s
  | .strdImm _ p u w rn rd off => Sys2Proof.Machine.execStrdImm p u w rn rd off s
  | .strdReg _ p u w rn rd rm => Sys2Proof.Machine.execStrdReg p u w rn rd rm s
  | .unpredLsx10 word => Sys2Proof.Machine.execUnpredLsx10 word s
  | .unpredLsx11 word => Sys2Proof.Machine.execUnpredLsx11 word s
  | .ldrImm _ u w rn rd off => Sys2Proof.Machine.execLdrImm u w rn rd off s
  | .ldrImmPost _ u rn rd off => Sys2Proof.Machine.execLdrImmPost u rn rd off s
  | .ldrReg _ u w rn rd o => Sys2Proof.Machine.execLdrReg u w rn rd o s
  | .ldrRegPost _ u rn rd o => Sys2Proof.Machine.execLdrRegPost u rn rd o s
  | .ldrtImm _ u rn rd off => Sys2Proof.Machine.execLdrtImm u rn rd off s
  | .ldrtReg _ u rn rd o => Sys2Proof.Machine.execLdrtReg u rn rd o s
  | .ldrbImm _ u w rn rd off => Sys2Proof.Machine.execLdrbImm u w rn rd off s
  | .ldrbImmPost _ u rn rd off => Sys2Proof.Machine.execLdrbImmPost u rn rd off s
  | .ldrbReg _ u w rn rd o => Sys2Proof.Machine.execLdrbReg u w rn rd o s
  | .ldrbRegPost _ u rn rd o => Sys2Proof.Machine.execLdrbRegPost u rn rd o s
  | .ldrbtImm _ u rn rd off => Sys2Proof.Machine.execLdrbtImm u rn rd off s
  | .ldrbtReg _ u rn rd o => Sys2Proof.Machine.execLdrbtReg u rn rd o s
  | .strImm _ u w rn rd off => Sys2Proof.Machine.execStrImm u w rn rd off s
  | .strImmPost _ u rn rd off => Sys2Proof.Machine.execStrImmPost u rn rd off s
  | .strReg _ u w rn rd o => Sys2Proof.Machine.execStrReg u w rn rd o s
  | .strRegPost _ u rn rd o => Sys2Proof.Machine.execStrRegPost u rn rd o s
  | .strtImm _ u rn rd off => Sys2Proof.Machine.execStrtImm u rn rd off s
  | .strtReg _ u rn rd o => Sys2Proof.Machine.execStrtReg u rn rd o s
  | .strbImm _ u w rn rd off => Sys2Proof.Machine.execStrbImm u w rn rd off s
  | .strbImmPost _ u rn rd off => Sys2Proof.Machine.execStrbImmPost u rn rd off s
  | .strbReg _ u w rn rd o => Sys2Proof.Machine.execStrbReg u w rn rd o s
  | .strbRegPost _ u rn rd o => Sys2Proof.Machine.execStrbRegPost u rn rd o s
  | .strbtImm _ u rn rd off => Sys2Proof.Machine.execStrbtImm u rn rd off s
  | .strbtReg _ u rn rd o => Sys2Proof.Machine.execStrbtReg u rn rd o s
  | .pldImm u rn off => Sys2Proof.Machine.execPldImm u rn off s
  | .pldReg u rn o => Sys2Proof.Machine.execPldReg u rn o s
  | .ldm _ p u w rn list => Sys2Proof.Machine.execLdm p u w rn list s
  | .ldmUser _ p u w rn list => Sys2Proof.Machine.execLdmUser p u w rn list s
  | .ldmReturn _ p u w rn list => Sys2Proof.Machine.execLdmReturn p u w rn list s
  | .stm _ p u w rn list => Sys2Proof.Machine.execStm p u w rn list s
  | .stmUser _ p u w rn list => Sys2Proof.Machine.execStmUser p u w rn list s
  | .b _ imm => Sys2Proof.Machine.execB imm s
  | .bl _ imm => Sys2Proof.Machine.execBl imm s
  | .bx _ rm => Sys2Proof.Machine.execBx rm s
  | .blxImm h imm => Sys2Proof.Machine.execBlxImm h imm s
  | .blxReg _ rm => Sys2Proof.Machine.execBlxReg rm s
  | .mrs _ r rd => Sys2Proof.Machine.execMrs r rd s
  | .msrImm _ r mask o => Sys2Proof.Machine.execMsrImm r mask o s
  | .msrReg _ r mask rm => Sys2Proof.Machine.execMsrReg r mask rm s
  | .clz _ rd rm => Sys2Proof.Machine.execClz rd rm s
  | .qadd _ rn rd rm => Sys2Proof.Machine.execQadd rn rd rm s
  | .qsub _ rn rd rm => Sys2Proof.Machine.execQsub rn rd rm s
  | .qdadd _ rn rd rm => Sys2Proof.Machine.execQdadd rn rd rm s
  | .qdsub _ rn rd rm => Sys2Proof.Machine.execQdsub rn rd rm s
  | .bkpt c immHi immLo => Sys2Proof.Machine.execBkpt c immHi immLo s
  | .swi _ imm => Sys2Proof.Machine.execSwi imm s
  | .cdp _ _ _ _ cp _ _ => Sys2Proof.Machine.execCdp cp s
  | .mcr _ _ _ _ cp _ _ => Sys2Proof.Machine.execMcr cp s
  | .mrc _ _ _ _ cp _ _ => Sys2Proof.Machine.execMrc cp s
  | .stcV4 _ _ _ _ _ _ _ cp _ => Sys2Proof.Machine.execStcV4 cp s
  | .ldcV4 _ _ _ _ _ _ _ cp _ => Sys2Proof.Machine.execLdcV4 cp s
  | .stcPre _ _ _ _ _ _ cp _ => Sys2Proof.Machine.execStcPre cp s
  | .stcPostUp _ _ _ _ _ cp _ => Sys2Proof.Machine.execStcPostUp cp s
  | .stcPostDown _ _ _ _ cp _ => Sys2Proof.Machine.execStcPostDown cp s
  | .stcPostDownLong _ _ _ cp _ => Sys2Proof.Machine.execStcPostDownLong cp s
  | .ldcPre _ _ _ _ _ _ cp _ => Sys2Proof.Machine.execLdcPre cp s
  | .ldcPostUp _ _ _ _ _ cp _ => Sys2Proof.Machine.execLdcPostUp cp s
  | .ldcPostDown _ _ _ _ cp _ => Sys2Proof.Machine.execLdcPostDown cp s
  | .ldcPostDownLong _ _ _ cp _ => Sys2Proof.Machine.execLdcPostDownLong cp s
  | .mcrr _ _ _ cp _ _ => Sys2Proof.Machine.execMcrr cp s
  | .mrrc _ _ _ cp _ _ => Sys2Proof.Machine.execMrrc cp s
  | .cdp2 _ _ _ cp _ _ => Sys2Proof.Machine.execCdp2 cp s
  | .mcr2 _ _ _ cp _ _ => Sys2Proof.Machine.execMcr2 cp s
  | .mrc2 _ _ _ cp _ _ => Sys2Proof.Machine.execMrc2 cp s
  | .stc2 _ _ _ _ _ _ cp _ => Sys2Proof.Machine.execStc2 cp s
  | .ldc2 _ _ _ _ _ _ cp _ => Sys2Proof.Machine.execLdc2 cp s
  | .undefMedia word => Sys2Proof.Machine.execUndefMedia word s
  | .undefMsrImm word => Sys2Proof.Machine.execUndefMsrImm word s
  | .undefMul word => Sys2Proof.Machine.execUndefMul word s
  | .undefSwap21 word => Sys2Proof.Machine.execUndefSwap21 word s
  | .undefSwap20 word => Sys2Proof.Machine.execUndefSwap20 word s
  | .undefSwap23 word => Sys2Proof.Machine.execUndefSwap23 word s
  | .undefMisc word => Sys2Proof.Machine.execUndefMisc word s
  | .nvV4 word => Sys2Proof.Machine.execNvV4 word s
  | .unpredUncond word => Sys2Proof.Machine.execUnpredUncond word s

end Sys2Proof.Machine
end

