-- ==== Sys2Proof/Machine/Cycle.lean ====
section
/-! DEFINITION. The execution cycle of one CPU (R230 to R251): fetch, interrupt entry (R643), decode and condition,
the tick cost, the advance of the pipeline (R45, R46); and one step of the block. -/

namespace Sys2Proof.Machine

open Sys2Proof.Config

/-! ### The program-counter pipeline (R43 to R47) -/

/-- `prefetch()` (R45). -/
def Cpu.prefetch (c : Cpu) : Cpu :=
  { c with pc := c.pcNext, pcNext := c.pcNext + 4#32, r := c.r.set 15 (c.pcNext + 8#32) }

/-- `setPC(addr)` (R46, R47). -/
def Cpu.setPC (a : Word) (c : Cpu) : Cpu :=
  Cpu.prefetch { c with pc := a, pcNext := a, r := c.r.set 15 a, started := true }

/-- The end of a step for the pipeline (R230): the target of `pc <-` when there is one, else `prefetch()`. -/
def Cpu.advance (c : Cpu) : Cpu :=
  match c.pendingPC with
  | some t => { c.setPC t with pendingPC := none }
  | none => c.prefetch

/-! ### Cost (R250) -/

/-- `INSN_CYCLES(word)` (R10, R250): the first line of the list that fits, else 1; never below 1 (log 17). -/
def insnCycles (rules : List CycleRule) (word : Word) : Nat :=
  match rules.find? fun r => word &&& r.mask == r.value with
  | some r => max 1 r.cycles
  | none => 1

/-- `CLOCK_DIVIDER` of the stepping CPU. -/
def State.divider (s : State) : Nat := s.cpu.cfg.clockDivider

/-- `StepCost(word)` (R250). -/
def State.stepCost (word : Word) (s : State) : Nat := s.divider * insnCycles s.params.insnCycles word

/-- The end of a step (R230): the tick is charged; a CPU that halted keeps its pipeline fields. -/
def State.retire (cost : Nat) (s : State) : State :=
  let c := { s.cpu with tick := s.cpu.tick + cost }
  s.setCpu (if c.halted.isSome then c else c.advance)

/-- A result, retired. -/
def retireResult (cost : Nat) : Result → Result
  | .next s => .next (s.retire cost)
  | .fault f => .fault f
  | .refused r => .refused r

/-! ### One step of a CPU (R230) -/

/-- `Fetch(PC)` (R120). -/
def State.fetch (s : State) : Access Word := s.busRead32 (wordAlign s.cpu.pc)

/-- The interrupt taken at the start of the step (R642, R643): FIQ first; none under `EXC_MODEL = unsupported`. -/
def State.interruptDue (s : State) : Option Exception :=
  match s.params.excModel with
  | .unsupported => none
  | .architectural =>
    if s.cpu.fiq && !flagF s.cpu.cpsr then some .fiq
    else if s.cpu.irq && !flagI s.cpu.cpsr then some .irq
    else none

/-- The instruction of a fetched word: executed when its condition passes, else without effect (R230, R234). -/
def State.runWord (word : Word) (s : State) : Result :=
  if conditionPassed word s.cpu.cpsr then exec (decode s.variant word) s else .next s

/-- The rest of a step after the fetch: execute, charge, advance. -/
def State.runFetched (word : Word) (s : State) : Result := retireResult (s.stepCost word) (s.runWord word)

/-- `pendingPC <- none` (R230). -/
def State.clearPending (s : State) : State := s.setCpu { s.cpu with pendingPC := none }

/-- `Step()` of the stepping CPU, which is started and not halted (R230). -/
def State.cpuStep (s : State) : Result :=
  let s0 := s.clearPending
  match s0.interruptDue with
  | some k => .next ((s0.enterException k).retire s.divider)
  | none =>
    match s0.fetch with
    | .fault a s1 => .next ((s1.halt (.busFault a)).retire s.divider)
    | .done word s1 => s1.runFetched word

/-! ### One step of the block -/

/-- One step of the block: none after a setup failure (R712); else a step of the CPU whose turn it is, or a move of
the Clock (R130, R671). -/
def State.blockStep (s : State) : Result :=
  match s.session with
  | some why => .fault (.setupFailed why)
  | none =>
    match s.turn with
    | some id => (s.select id).cpuStep
    | none => .next s.clockStep

/-! ### An instruction in the place of the next fetch (log 10) -/

/-- The index of a CPU among the masters. -/
def masterIndex (id : CpuId) (masters : List Master) : Option Nat := masters.findIdx? fun m => m == .cpu id

/-- The Clock in a pass in which it is the turn of CPU `id`, one tick below the target. -/
def Clock.turnOf (id : CpuId) (tick : Int) (c : Clock) : Clock :=
  match masterIndex id c.masters with
  | some k => { c with targetTick := tick + 1, phase := .pass (tick + 1) k [] }
  | none =>
    { c with
      targetTick := tick + 1
      masters := c.masters ++ [.cpu id]
      phase := .pass (tick + 1) c.masters.length [] }

/-- The stepping CPU ready to step: started at its PC, not halted, no interrupt level (R47, R643). -/
def Cpu.readied (c : Cpu) : Cpu :=
  { c.setPC (wordAlign c.pc) with pendingPC := none, halted := none, irq := false, fiq := false }

/-- A word stored where the stepping CPU fetches: in the raw buffer its read side names, else in one raw buffer
installed over its whole address space. -/
def State.placeWord (word : Word) (s : State) : State :=
  let a := wordAlign s.cpu.pc
  match s.cpu.bus.resolve s.params.highAddr s.cpu.bus.readPages a with
  | .raw p => { s with mem := s.mem.writeWord p word }
  | _ => { s.setCpu { s.cpu with bus := Bus.reset } with mem := s.mem.writeWord a.toNat word }

/-- The state in which the next step of the block fetches and runs a given word (log 10). -/
def State.withNextWord (word : Word) (s : State) : State :=
  let s1 := (s.setCpu s.cpu.readied).placeWord word
  { s1 with
    session := none
    params := { s1.params with schedule := .clock }
    clock := s1.clock.turnOf s1.cur s1.cpu.tick }

end Sys2Proof.Machine
end

