-- ==== Sys2Proof/Machine/Step.lean ====
section
/-! DEFINITION. The step of the block and the placing of one instruction where it fetches next; both only call
Machine/Cycle.lean. -/

namespace Sys2Proof.Machine

/-- One step of the block (R130, R230, R671, R712). -/
def step (s : State) : Host.Outcome State Fault Refusal := s.blockStep

/-- `s` with the instruction whose bits are `w` where `step` fetches its next instruction; a program is loaded and
started by the host (R710), for which this stands (log 10). -/
def State.withFetchWord (s : State) (nbits w : Nat) : State :=
  s.withNextWord (BitVec.ofNat 32 (w % 2 ^ nbits))

end Sys2Proof.Machine
end

