-- ==== Sys2Proof/Machine/HostOps.lean ====
section
/-! DEFINITION. The operations the host has on the block (R715): creating buses and ranges (R101 to R105), creating
and resetting CPUs (R700, R711), setPC (R46), the image copy (R118, R710), the boot sequence (R710), the interrupt levels
(R643), the Clock's registry (R677), and single operations of a harness: Step (R620), CPU.execute (R670), Clock.execute
(R671), none of which runs after a failed setup operation (R712). -/

namespace Sys2Proof.Machine

open Sys2Proof.Config

/-! ### Buses (R101 to R105) -/

/-- `create(addressBits, pageBits)` of a bus (R101): none for an impossible geometry. -/
def Bus.create (addressBits pageBits : Nat) : Option Bus :=
  if addressBits ≤ 32 ∧ 1 ≤ pageBits ∧ pageBits ≤ addressBits then
    some { addressBits := addressBits, pageBits := pageBits, readPages := [], writePages := [] }
  else none

/-- What remains of an item below an address (R102). -/
def Item.below (a : Nat) (it : Item) : Option Item :=
  if it.base < a then some { it with limit := min it.limit a } else none

/-- What remains of an item from an address on (R102). -/
def Item.above (a : Nat) (it : Item) : Option Item :=
  if a < it.limit then some { it with base := max it.base a } else none

/-- The items of a page with a new one inserted: the others are sliced, shrunk or deleted (R102, R103). -/
def insertItem (new : Item) (items : List Item) : List Item :=
  items.filterMap (Item.below new.base) ++ new :: items.filterMap (Item.above new.limit)

/-- A page table with the items of one page replaced. -/
def setPage (n : Nat) (items : List Item) : PageTable → PageTable
  | [] => [(n, items)]
  | (k, old) :: rest => if k = n then (n, items) :: rest else (k, old) :: setPage n items rest

/-- The part of [base, limit) in page `n`, with the offset of R105 (log 16); none when they do not meet. -/
def Bus.pageItem (b : Bus) (base limit : Nat) (acc : Accessor) (n : Nat) : Option Item :=
  let lo := max base (n * 2 ^ b.pageBits)
  let hi := min limit ((n + 1) * 2 ^ b.pageBits)
  if lo < hi then some { base := lo, limit := hi, offset := base, acc := acc } else none

/-- A range installed in one page of a page table. -/
def Bus.installPage (b : Bus) (base limit : Nat) (acc : Accessor) (pages : PageTable) (n : Nat) : PageTable :=
  match b.pageItem base limit acc n with
  | some it => setPage n (insertItem it (b.pageItems pages n)) pages
  | none => pages

/-- The numbers of the pages from the one of `base` to the one of `limit`, inside the address space. -/
def Bus.affectedPages (b : Bus) (base limit : Nat) : List Nat :=
  let first := base / 2 ^ b.pageBits
  let count := (min limit (2 ^ b.addressBits) - 1) / 2 ^ b.pageBits + 1 - first
  (List.range count).map (first + ·)

/-- A range installed in every affected page of a page table (R102). -/
def Bus.install (b : Bus) (base size : Nat) (acc : Accessor) (pages : PageTable) : PageTable :=
  let limit := min (base + size) (2 ^ b.addressBits)
  (b.affectedPages base limit).foldl (b.installPage base limit acc) pages

/-- Which sides of a range an installation covers (R104). -/
inductive Side where
  | read | write | both
deriving DecidableEq, Repr

/-- `addRange(base, size, accessor)` (R102, R104): none when base or size is not a multiple of 16. -/
def Bus.addRange (side : Side) (base size : Nat) (acc : Accessor) (b : Bus) : Option Bus :=
  if base % 16 = 0 ∧ size % 16 = 0 then
    some { b with
      readPages := if side = .write then b.readPages else b.install base size acc b.readPages
      writePages := if side = .read then b.writePages else b.install base size acc b.writePages }
  else none

/-- The page invariant of R103: the items partition [lo, hi), sorted, without gap or overlap. -/
def partitions : Nat → Nat → List Item → Bool
  | lo, hi, [] => lo == hi
  | lo, hi, it :: rest => it.base == lo && decide (it.base < it.limit) && partitions it.limit hi rest

/-- R103 for one side of a bus: the page of every number is partitioned. -/
def Bus.pageOk (b : Bus) (pages : PageTable) (n : Nat) : Bool :=
  partitions (n * 2 ^ b.pageBits) ((n + 1) * 2 ^ b.pageBits) (b.pageItems pages n)

/-! ### CPUs (R700, R711) -/

/-- The seven modes in the order of R700. -/
def resetModes : List Mode := [.usr, .fiq, .irq, .svc, .abt, .und, .sys]

/-- `reset()` (R700): the live registers zeroed, CPSR loaded, the seven exports, the pipeline fields, `started` and
`halted`. The tick, the bus and the interrupt levels stay. -/
def Cpu.doReset (resetCpsr : Word) (c : Cpu) : Cpu :=
  let c1 := { c with
    r := Vector.replicate 16 0#32
    cpsr := resetCpsr &&& psrMask c.cfg.variant
    spsr := 0#32 }
  let c2 := resetModes.foldl (fun x m => x.saveBank m.bits) c1
  { c2 with pc := 0#32, pcNext := 0#32, pendingPC := none, started := false, halted := none }

/-- `CPU.reset()` of one CPU (R700): nothing else of the block changes. -/
def State.resetCpu (id : CpuId) (s : State) : State :=
  s.putCpu id ((s.cpuOf id).doReset s.params.resetCpsr)

/-- The variant of an instance (R2, D1). -/
def CpuId.variant : CpuId → Variant
  | .arm7 => .v4
  | .arm9 => .v5

/-- The block after a setup operation failed (R712). -/
def State.failSetup (why : SetupFailure) (s : State) : State := { s with session := some why }

/-- `CPU.create(config, memoryBus, clock, clockDivider)` (R711); `family` is none when `config` names no known
family. The CPU is appended to the masters, its tick is 0 and the rest is as after `reset()`. R61 gives a positive
divider and names no failure for 0: a divider of 0 is taken as it is (DESIGN CHOICE, log 29). -/
def State.createCpu (family : Option CpuId) (endian : Endian) (base : VectorBase) (divider : Nat) (bus : Bus)
    (s : State) : State :=
  match family with
  | none => s.failSetup .unknownFamily
  | some id =>
    let fresh := { Cpu.reset { variant := id.variant, endian := endian, clockDivider := divider,
                               vectorBase := base } with bus := bus }
    let s1 := s.putCpu id (fresh.doReset s.params.resetCpsr)
    { s1 with clock := { s1.clock with masters := s1.clock.masters ++ [.cpu id] } }

/-- `Bus.create` for the bus of a CPU (R101, R712). -/
def State.createBus (id : CpuId) (addressBits pageBits : Nat) (s : State) : State :=
  match Bus.create addressBits pageBits with
  | some b => s.putCpu id { s.cpuOf id with bus := b }
  | none => s.failSetup .badGeometry

/-- `Bus.addRange` on the bus of a CPU (R102, R712). -/
def State.addRange (id : CpuId) (side : Side) (base size : Nat) (acc : Accessor) (s : State) : State :=
  match (s.cpuOf id).bus.addRange side base size acc with
  | some b => s.putCpu id { s.cpuOf id with bus := b }
  | none => s.failSetup .badRange

/-- `CPU.setPC(addr)` by the host (R46, R710). -/
def State.hostSetPC (id : CpuId) (a : Word) (s : State) : State := s.putCpu id ((s.cpuOf id).setPC a)

/-- The level inputs of a CPU set by the host (R643). -/
def State.setLevels (id : CpuId) (irq fiq : Bool) (s : State) : State :=
  s.putCpu id { s.cpuOf id with irq := irq, fiq := fiq }

/-- One byte of an image copied to a byte address of a CPU's raw memory, in the CPU's own byte view (R118 for ENDIAN
little; for ENDIAN big the lane of R110, DEDUCED, log 28). Of a split range (R104) the copy goes by the write side alone:
the byte goes to the raw buffer that the write side of the bus leads to, whatever the read side leads to, and a byte whose
address is no raw memory on the write side is not copied (both DESIGN CHOICE, log 28). -/
def State.loadByteAt (id : CpuId) (a : Word) (v : Byte) (s : State) : State :=
  let b := (s.cpuOf id).bus
  match b.resolve s.params.highAddr b.writePages (wordAlign a) with
  | .raw p => { s with mem := s.mem.write (p + byteLane (s.cpuOf id).cfg.endian a) v }
  | _ => s

/-- The image copy of R710: file byte `j` to byte address `a + j`. -/
def State.loadImage (id : CpuId) : List Byte → Word → State → State
  | [], _, s => s
  | v :: vs, a, s => State.loadImage id vs (a + 1#32) (s.loadByteAt id a v)

/-! ### The boot sequence (R710) -/

/-- One line of a bus's MEMORY_MAP (R10, R102, R104). -/
structure Range where
  side : Side
  base : Nat
  size : Nat
  acc : Accessor
deriving DecidableEq, Repr

/-- What the platform gives for one CPU (R10, R710, R711): its family (none for an unknown one), its configuration, the
geometry and the map of its bus, its image with the address it is loaded to, and its entry. -/
structure CpuSetup where
  family : Option CpuId
  endian : Endian
  vectorBase : VectorBase
  clockDivider : Nat
  addressBits : Nat
  pageBits : Nat
  ranges : List Range
  image : List Byte
  ramAddress : Word
  entry : Word
deriving DecidableEq, Repr

/-- The ranges of a MEMORY_MAP, in order; none when one of them fails (R102). -/
def Bus.addRanges : List Range → Bus → Option Bus
  | [], b => some b
  | x :: xs, b => (b.addRange x.side x.base x.size x.acc).bind (Bus.addRanges xs)

/-- Step 1: the Clock, without masters or slaves (R62). -/
def State.createClock (s : State) : State := { s with clock := Clock.create }

/-- Steps 2 and 3 for one CPU: its bus, then the CPU; nothing once a setup operation has failed (R712). -/
def State.setUp (s : State) (x : CpuSetup) : State :=
  if s.session.isSome then s
  else match Bus.create x.addressBits x.pageBits with
    | none => s.failSetup .badGeometry
    | some b =>
      match b.addRanges x.ranges with
      | none => s.failSetup .badRange
      | some b => s.createCpu x.family x.endian x.vectorBase x.clockDivider b

/-- A step of the sequence that runs for each CPU in order; nothing once a setup operation has failed (R712). -/
def State.forEachCpu (f : CpuId → CpuSetup → State → State) (xs : List CpuSetup) (s : State) : State :=
  xs.foldl (fun s x => match s.session, x.family with
    | none, some id => f id x s
    | _, _ => s) s

/-- Steps 1 to 5: the Clock, the buses, the CPUs in the order of MASTER_ORDER, the images, `reset()` of each CPU. -/
def State.bootReset (xs : List CpuSetup) (s : State) : State :=
  let s1 := xs.foldl State.setUp s.createClock
  let s2 := s1.forEachCpu (fun id x => State.loadImage id x.image x.ramAddress) xs
  s2.forEachCpu (fun id _ => State.resetCpu id) xs

/-- Steps 1 to 6: each CPU started at its entry. Step 7, the frame loop, is `State.clockStep`. -/
def State.boot (xs : List CpuSetup) (s : State) : State :=
  (s.bootReset xs).forEachCpu (fun id x => State.hostSetPC id x.entry) xs

/-! ### The Clock's registry (R677) -/

/-- `addMaster` (R677): the entity goes to the end of the list, also when it stands there already (DESIGN CHOICE,
log 30). -/
def State.addMaster (m : Master) (s : State) : State :=
  { s with clock := { s.clock with masters := s.clock.masters ++ [m] } }

/-- Whether two entries are the same registered master. -/
def Master.same : Master → Master → Bool
  | .cpu a, .cpu b => a == b
  | .device a _, .device b _ => a == b
  | _, _ => false

/-- `removeMaster` (R677): the rest keeps its order; every entry of the entity goes (DESIGN CHOICE, log 30). -/
def State.removeMaster (m : Master) (s : State) : State :=
  { s with clock := { s.clock with masters := s.clock.masters.filter fun x => !x.same m } }

/-- `addSlave` (R677), as `addMaster` (DESIGN CHOICE, log 30). -/
def State.addSlave (x : Slave) (s : State) : State :=
  { s with clock := { s.clock with slaves := s.clock.slaves ++ [x] } }

/-- `removeSlave` (R677), as `removeMaster` (DESIGN CHOICE, log 30). -/
def State.removeSlave (name : Nat) (s : State) : State :=
  { s with clock := { s.clock with slaves := s.clock.slaves.filter fun x => x.name != name } }

/-! ### A harness (R620, R670, R671) -/

/-- What a harness's operation answers: nothing once a setup operation has failed (R621, R712), "the session ends and no
step runs". -/
def State.inSession {α : Type} (s : State) (x : Option α) : Option α :=
  match s.session with
  | none => x
  | some _ => none

/-- What `Step()` returns (R620). -/
inductive StepOutcome where
  | normal
  | notStarted
  | halted
  | raised (h : Halt)
deriving DecidableEq, Repr

/-- `Step()` of a CPU by a harness (R230, R620): the outcome and the state after it; none when no step runs (R712). -/
def State.hostStep (id : CpuId) (s : State) : Option (StepOutcome × State) :=
  s.inSession <|
    if (s.cpuOf id).started = false then some (.notStarted, s)
    else if (s.cpuOf id).halted.isSome then some (.halted, s)
    else match ({ s with cur := id } : State).cpuStep with
      | .next s1 =>
        some (match (s1.cpuOf id).halted with
          | some h => .raised h
          | none => .normal, s1)
      | _ => none

/-- The loop of `CPU.execute(t)` (R670) with at most `fuel` turns: the state and the returned tick. -/
def State.executeLoop (id : CpuId) (t : Int) : Nat → State → Option (State × Int)
  | 0, _ => none
  | fuel + 1, s =>
    if (s.cpuOf id).runsTo t then
      match ({ s with cur := id } : State).cpuStep with
      | .next s1 => State.executeLoop id t fuel s1
      | _ => none
    else
      let c := s.cpuOf id
      some (s.putCpu id { c with tick := c.idleTick t }, c.idleTick t)

/-- `CPU.execute(t)` by a harness (R670); none when the fuel ends, or no step runs (R712). -/
def State.cpuExecute (id : CpuId) (t : Int) (fuel : Nat) (s : State) : Option (State × Int) :=
  s.inSession (s.executeLoop id t fuel)

/-- The block's steps up to the return of a call of `Clock.execute`, with at most `fuel` of them. -/
def State.untilReturned : Nat → State → Option State
  | 0, _ => none
  | fuel + 1, s =>
    match s.clock.phase with
    | .returned _ => some { s with clock := { s.clock with phase := .idle } }
    | _ =>
      match s.blockStep with
      | .next s1 => State.untilReturned fuel s1
      | _ => none

/-- `Clock.execute(T)` by a harness (R671); none when the fuel ends, or no step runs (R712). -/
def State.clockExecute (fuel : Nat) (goal : Int) (s : State) : Option State :=
  s.inSession (State.untilReturned fuel { s with clock := s.clock.call goal })

end Sys2Proof.Machine
end

