-- ==== Sys2Proof/Safety.lean ====
section
/-! DEFINITION. What claims call a good state and a good run: the invariant of the block that every step keeps (the
canonical form of memory; for each CPU the pipeline of R44, R237, no leftover target, no Thumb state (R622), the
reserved bits of every status word at 0 (R51)), and the terms in which outcomes are said. -/

namespace Sys2Proof.Machine

open Sys2Proof.Config

/-- The pipeline of a started CPU at the start of a step (R44, R237). -/
def Cpu.pipelineOk (c : Cpu) : Bool :=
  bits 0 2 c.pc == 0#2 && c.pcNext == c.pc + 4#32 && c.r[15] == c.pc + 8#32

/-- A status word whose reserved bits are 0 (R51). -/
def psrOk (v : Variant) (w : Word) : Bool := w &&& ~~~psrMask v == 0#32

/-- The CPSR of a CPU: Thumb state never set (R622), reserved bits 0 (R51). -/
def Cpu.cpsrOk (c : Cpu) : Bool := !flagT c.cpsr && psrOk c.cfg.variant c.cpsr

/-- The live SPSR and the five banked ones: reserved bits 0 (R51). -/
def Cpu.spsrsOk (c : Cpu) : Bool :=
  [c.spsr, c.banks.fiq.spsr, c.banks.irq.spsr, c.banks.svc.spsr, c.banks.abt.spsr, c.banks.und.spsr].all
    (psrOk c.cfg.variant)

/-- What holds of a CPU between steps. -/
def Cpu.ok (c : Cpu) : Bool := (!c.started || c.pipelineOk) && c.pendingPC.isNone && c.cpsrOk && c.spsrsOk

/-- The invariant of the block: memory is canonical, both CPUs are good. -/
def State.Inv (s : State) : Bool := s.mem.wf && s.arm7.ok && s.arm9.ok

/-! ### What an instruction leaves unchanged -/

/-- The stepping CPU keeps every register outside `ds`, the bits of CPSR outside `m`, and every other field but the
pending target of the program counter. -/
def KeepsCpu (ds : List RegNo) (m : Word) (s t : State) : Prop :=
  (∀ i : RegNo, i ∉ ds → t.reg i = s.reg i) ∧ t.cpu.cpsr &&& ~~~m = s.cpu.cpsr &&& ~~~m ∧
  t.cpu.spsr = s.cpu.spsr ∧ t.cpu.banks = s.cpu.banks ∧ t.cpu.cfg = s.cpu.cfg ∧ t.cpu.bus = s.cpu.bus ∧
  t.cpu.pc = s.cpu.pc ∧ t.cpu.pcNext = s.cpu.pcNext ∧ t.cpu.tick = s.cpu.tick ∧ t.cpu.started = s.cpu.started ∧
  t.cpu.halted = s.cpu.halted ∧ t.cpu.irq = s.cpu.irq ∧ t.cpu.fiq = s.cpu.fiq

/-- The other CPU, the Clock, the parameters and the session are as before. -/
def KeepsBlock (s t : State) : Prop :=
  t.cur = s.cur ∧ t.clock = s.clock ∧ t.params = s.params ∧ t.session = s.session ∧
  ∀ id : CpuId, id ≠ s.cur → t.cpuOf id = s.cpuOf id

/-- No byte of memory changed, no delegate was called, no free value was drawn. -/
def KeepsBus (s t : State) : Prop :=
  (∀ a : Nat, t.mem.read a = s.mem.read a) ∧ t.events = s.events ∧ t.draws = s.draws

/-- The frame of an instruction that may write the registers `ds` and the bits `m` of CPSR and does not touch the
bus; the pending target of the program counter stays, too. -/
def Keeps (ds : List RegNo) (m : Word) (s t : State) : Prop :=
  KeepsCpu ds m s t ∧ KeepsBlock s t ∧ KeepsBus s t ∧ t.cpu.pendingPC = s.cpu.pendingPC

/-- The flags N, Z, C, V of CPSR. -/
def nzcvMask : Word := 0xF0000000#32

/-- The four flags of the stepping CPU are these. -/
def FlagsAre (n z c v : Bool) (s : State) : Prop :=
  flagN s.cpu.cpsr = n ∧ flagZ s.cpu.cpsr = z ∧ flagC s.cpu.cpsr = c ∧ flagV s.cpu.cpsr = v

/-! ### Modes and banks -/

/-- The value of register `i` of mode `m` (R39): the live register when the mode shares the slot with the current one,
else the slot of the bank. -/
def Cpu.view (m : BitVec 5) (i : Fin 15) (c : Cpu) : Word :=
  if physBank m i.val = physBank (modeField c.cpsr) i.val then c.r[i.val] else c.banks.read m i

/-- The SPSR of mode `m` (R39), if it has one. -/
def Cpu.spsrView (m : BitVec 5) (c : Cpu) : Option Word :=
  if hasSpsr m then
    if bankOf m = bankOf (modeField c.cpsr) then some c.spsr else c.banks.spsr m
  else none

/-- A mode switch (R38): no register and no SPSR of any mode changes its value, nor r15, nor any field of the CPU but
CPSR, the live array, the banks and the pending target. -/
def SwitchesBank (s t : State) : Prop :=
  (∀ (m : BitVec 5) (i : Fin 15), t.cpu.view m i = s.cpu.view m i) ∧
  (∀ m : BitVec 5, t.cpu.spsrView m = s.cpu.spsrView m) ∧ t.reg 15#4 = s.reg 15#4 ∧
  t.cpu.cfg = s.cpu.cfg ∧ t.cpu.bus = s.cpu.bus ∧ t.cpu.pc = s.cpu.pc ∧ t.cpu.pcNext = s.cpu.pcNext ∧
  t.cpu.tick = s.cpu.tick ∧ t.cpu.started = s.cpu.started ∧ t.cpu.halted = s.cpu.halted ∧
  t.cpu.irq = s.cpu.irq ∧ t.cpu.fiq = s.cpu.fiq

/-- A whole word written to CPSR within PSR_MASK (R51, R536). -/
def State.returnCpsr (v : Word) (s : State) : Word :=
  (s.cpu.cpsr &&& ~~~psrMask s.variant) ||| (v &&& psrMask s.variant)

/-- What an exception return does with the SPSR `v` and the value `r` for the program counter (R305, R478): a change of T
halts with ThumbState (R622, its target `r` by log 12), an invalid mode with InvalidMode (R536); else `r`, unaligned a halt
or aligned by MISALIGNED_PC (R240), is the target. -/
def State.returnTarget (v r : Word) (s : State) : Except StopReason Word :=
  if flagT v ≠ flagT s.cpu.cpsr then .error (.unsupported (.thumbState r))
  else if validMode (modeField v) = false then .error (.unpredictable .invalidMode)
  else if r.toNat % 4 = 0 then .ok r
  else match s.params.misalignedPc with
    | .fault => .error (.unpredictable .misalignedPC)
    | .align => .ok (r - BitVec.ofNat 32 (r.toNat % 4))

/-- The exception entry of R640: CPSR with the new mode, T = 0, I = 1, F = 1 for FIQ and every other bit as before;
the old CPSR in the SPSR of the new mode, the link in its r14, the vector as the target of the program counter; no other
register or SPSR of any mode changes, nor any other field of the CPU. -/
def Enters (mode : BitVec 5) (offset link : Word) (fiq : Bool) (s t : State) : Prop :=
  modeField t.cpu.cpsr = mode ∧ flagT t.cpu.cpsr = false ∧ flagI t.cpu.cpsr = true ∧
  flagF t.cpu.cpsr = (fiq || flagF s.cpu.cpsr) ∧ t.cpu.cpsr &&& 0xFFFFFF00#32 = s.cpu.cpsr &&& 0xFFFFFF00#32 ∧
  t.cpu.spsrView mode = some s.cpu.cpsr ∧ t.reg 14#4 = link ∧
  t.cpu.pendingPC = some ((match s.cpu.cfg.vectorBase with
    | .low => 0x00000000#32
    | .high => 0xFFFF0000#32) + offset) ∧
  (∀ (m : BitVec 5) (i : Fin 15), ¬(i.val = 14 ∧ physBank m 14 = physBank mode 14) →
    t.cpu.view m i = s.cpu.view m i) ∧
  (∀ m : BitVec 5, bankOf m ≠ bankOf mode → t.cpu.spsrView m = s.cpu.spsrView m) ∧ t.reg 15#4 = s.reg 15#4 ∧
  t.cpu.cfg = s.cpu.cfg ∧ t.cpu.bus = s.cpu.bus ∧ t.cpu.pc = s.cpu.pc ∧ t.cpu.pcNext = s.cpu.pcNext ∧
  t.cpu.tick = s.cpu.tick ∧ t.cpu.started = s.cpu.started ∧ t.cpu.halted = s.cpu.halted ∧
  t.cpu.irq = s.cpu.irq ∧ t.cpu.fiq = s.cpu.fiq

/-! ### Data processing, all sixteen opcodes in their three forms -/

/-- The sixteen opcodes (R310 to R325). -/
inductive DpOp where
  | and | eor | sub | rsb | add | adc | sbc | rsc | tst | teq | cmp | cmn | orr | mov | bic | mvn
deriving DecidableEq, Repr

/-- The three operand forms (R171). -/
inductive DpOperand where
  | imm (o : ImmOp)
  | immShift (o : ShiftImmOp)
  | regShift (o : ShiftRegOp)
deriving DecidableEq, Repr

/-- The instruction of an opcode and a form; the compare and test opcodes have no S bit (R306). -/
def dpInstr (op : DpOp) (c : Cond) (sf : Bool) (rn rd : RegNo) (o : DpOperand) : Instr :=
  match op, o with
  | .and, .imm o => .andImm c sf rn rd o
  | .and, .immShift o => .andImmShift c sf rn rd o
  | .and, .regShift o => .andRegShift c sf rn rd o
  | .eor, .imm o => .eorImm c sf rn rd o
  | .eor, .immShift o => .eorImmShift c sf rn rd o
  | .eor, .regShift o => .eorRegShift c sf rn rd o
  | .sub, .imm o => .subImm c sf rn rd o
  | .sub, .immShift o => .subImmShift c sf rn rd o
  | .sub, .regShift o => .subRegShift c sf rn rd o
  | .rsb, .imm o => .rsbImm c sf rn rd o
  | .rsb, .immShift o => .rsbImmShift c sf rn rd o
  | .rsb, .regShift o => .rsbRegShift c sf rn rd o
  | .add, .imm o => .addImm c sf rn rd o
  | .add, .immShift o => .addImmShift c sf rn rd o
  | .add, .regShift o => .addRegShift c sf rn rd o
  | .adc, .imm o => .adcImm c sf rn rd o
  | .adc, .immShift o => .adcImmShift c sf rn rd o
  | .adc, .regShift o => .adcRegShift c sf rn rd o
  | .sbc, .imm o => .sbcImm c sf rn rd o
  | .sbc, .immShift o => .sbcImmShift c sf rn rd o
  | .sbc, .regShift o => .sbcRegShift c sf rn rd o
  | .rsc, .imm o => .rscImm c sf rn rd o
  | .rsc, .immShift o => .rscImmShift c sf rn rd o
  | .rsc, .regShift o => .rscRegShift c sf rn rd o
  | .tst, .imm o => .tstImm c rn rd o
  | .tst, .immShift o => .tstImmShift c rn rd o
  | .tst, .regShift o => .tstRegShift c rn rd o
  | .teq, .imm o => .teqImm c rn rd o
  | .teq, .immShift o => .teqImmShift c rn rd o
  | .teq, .regShift o => .teqRegShift c rn rd o
  | .cmp, .imm o => .cmpImm c rn rd o
  | .cmp, .immShift o => .cmpImmShift c rn rd o
  | .cmp, .regShift o => .cmpRegShift c rn rd o
  | .cmn, .imm o => .cmnImm c rn rd o
  | .cmn, .immShift o => .cmnImmShift c rn rd o
  | .cmn, .regShift o => .cmnRegShift c rn rd o
  | .orr, .imm o => .orrImm c sf rn rd o
  | .orr, .immShift o => .orrImmShift c sf rn rd o
  | .orr, .regShift o => .orrRegShift c sf rn rd o
  | .mov, .imm o => .movImm c sf rn rd o
  | .mov, .immShift o => .movImmShift c sf rn rd o
  | .mov, .regShift o => .movRegShift c sf rn rd o
  | .bic, .imm o => .bicImm c sf rn rd o
  | .bic, .immShift o => .bicImmShift c sf rn rd o
  | .bic, .regShift o => .bicRegShift c sf rn rd o
  | .mvn, .imm o => .mvnImm c sf rn rd o
  | .mvn, .immShift o => .mvnImmShift c sf rn rd o
  | .mvn, .regShift o => .mvnRegShift c sf rn rd o

/-- What the shifter gives for a form (R270 to R277). -/
def DpOperand.shifted (o : DpOperand) (s : State) : Shifted :=
  match o with
  | .imm o => shiftImmediate o (flagC s.cpu.cpsr)
  | .immShift o => shiftByImm o.shift (s.reg o.rm) o.amount.toNat (flagC s.cpu.cpsr)
  | .regShift o => shiftByReg o.shift (s.reg o.rm) ((s.reg o.rs).toNat % 256) (flagC s.cpu.cpsr)

/-- MOV and MVN do not read Rn (R300). -/
def DpOp.readsRn (op : DpOp) : Bool := op != .mov && op != .mvn

/-- The compare and test opcodes (R306). -/
def DpOp.testsOnly (op : DpOp) : Bool := [DpOp.tst, .teq, .cmp, .cmn].contains op

/-- The logical opcodes (R304). -/
def DpOp.logical (op : DpOp) : Bool := [DpOp.and, .eor, .tst, .teq, .orr, .mov, .bic, .mvn].contains op

/-- The restriction of the register-shift form (R276): no used register field is 15. -/
def dpLegal (op : DpOp) (rn rd : RegNo) (o : DpOperand) : Bool :=
  match o with
  | .regShift x =>
    x.rm != 15#4 && x.rs != 15#4 && (!op.readsRn || rn != 15#4) && (op.testsOnly || rd != 15#4)
  | _ => true

/-- The result of an opcode on `a` (Rn), `b` (the shifter value) and the carry (R302, R310 to R325). -/
def DpOp.value (op : DpOp) (a b : Word) (c : Bool) : Word :=
  let borrow : Word := if c then 0#32 else 1#32
  let carry : Word := if c then 1#32 else 0#32
  match op with
  | .and => a &&& b
  | .eor => a ^^^ b
  | .sub => a - b
  | .rsb => b - a
  | .add => a + b
  | .adc => a + b + carry
  | .sbc => a - b - borrow
  | .rsc => b - a - borrow
  | .tst => a &&& b
  | .teq => a ^^^ b
  | .cmp => a - b
  | .cmn => a + b
  | .orr => a ||| b
  | .mov => b
  | .bic => a &&& ~~~b
  | .mvn => ~~~b

/-- The exact sum or difference of an arithmetic opcode on signed operands (R301, R302). -/
def DpOp.exact (op : DpOp) (a b : Int) (c : Bool) : Int :=
  let borrow : Int := if c then 0 else 1
  match op with
  | .sub | .cmp => a - b
  | .rsb => b - a
  | .adc => a + b + (1 - borrow)
  | .sbc => a - b - borrow
  | .rsc => b - a - borrow
  | _ => a + b

/-- The carry of an arithmetic opcode (R302): the unsigned sum leaves 32 bits, or no borrow occurs. -/
def DpOp.carryOut (op : DpOp) (a b : Nat) (c : Bool) : Bool :=
  let borrow : Nat := if c then 0 else 1
  match op with
  | .sub | .cmp => decide (b ≤ a)
  | .rsb => decide (a ≤ b)
  | .adc => decide (2 ^ 32 ≤ a + b + (1 - borrow))
  | .sbc => decide (b + borrow ≤ a)
  | .rsc => decide (a + borrow ≤ b)
  | _ => decide (2 ^ 32 ≤ a + b)

/-! ### Multiplies -/

/-- The half of a register that a DSP multiply takes (R360). -/
def halfPart (h : Half) (w : Word) : BitVec 16 :=
  match h with
  | .bottom => w.setWidth 16
  | .top => (w >>> 16).setWidth 16

/-- The register fields a multiply uses (R350); none for another instruction. -/
def mulUsed (i : Instr) : List RegNo :=
  match i with
  | .mul _ _ rd rs rm => [rd, rs, rm]
  | .mla _ _ rd rn rs rm => [rd, rn, rs, rm]
  | .umull _ _ hi lo rs rm => [hi, lo, rs, rm]
  | .umlal _ _ hi lo rs rm => [hi, lo, rs, rm]
  | .smull _ _ hi lo rs rm => [hi, lo, rs, rm]
  | .smlal _ _ hi lo rs rm => [hi, lo, rs, rm]
  | .smlaxy _ rd rn rs _ _ rm => [rd, rn, rs, rm]
  | .smlawy _ rd rn rs _ rm => [rd, rn, rs, rm]
  | .smulwy _ rd rs _ rm => [rd, rs, rm]
  | .smlalxy _ hi lo rs _ _ rm => [hi, lo, rs, rm]
  | .smulxy _ rd rs _ _ rm => [rd, rs, rm]
  | _ => []

/-- The overlap that R350 forbids to a multiply. -/
def mulOverlaps (i : Instr) : Bool :=
  match i with
  | .mul _ _ rd _ rm => rd == rm
  | .mla _ _ rd _ _ rm => rd == rm
  | .umull _ _ hi lo _ rm => hi == lo || hi == rm || lo == rm
  | .umlal _ _ hi lo _ rm => hi == lo || hi == rm || lo == rm
  | .smull _ _ hi lo _ rm => hi == lo || hi == rm || lo == rm
  | .smlal _ _ hi lo _ rm => hi == lo || hi == rm || lo == rm
  | .smlalxy _ hi lo _ _ _ _ => hi == lo
  | _ => false

/-! ### Single loads and stores -/

/-- What a single load or store does (R410 to R417, R425 to R428, R441, R442); LDRBT, STRT and STRBT do what LDRB, STR
and STRB do (R432), LDRT has one more restriction than LDR (R404). -/
inductive LsKind where
  | ldr | ldrt | ldrb | ldrh | ldrsb | ldrsh | ldrd | str | strb | strh | strd
deriving DecidableEq, Repr

/-- A single load or store: what it does, its index bits, its base, its data register, its offset. -/
structure LsForm where
  kind : LsKind
  x : Index
  rn : RegNo
  rd : RegNo
  o : Offset

/-- The form of a single load or store; none for another instruction. -/
def lsForm (i : Instr) : Option LsForm :=
  match i with
  | .strhImm _ p u w rn rd off => some ⟨.strh, ⟨p, u, w⟩, rn, rd, offset8Imm off⟩
  | .strhReg _ p u w rn rd rm => some ⟨.strh, ⟨p, u, w⟩, rn, rd, .reg rm⟩
  | .ldrhImm _ p u w rn rd off => some ⟨.ldrh, ⟨p, u, w⟩, rn, rd, offset8Imm off⟩
  | .ldrhReg _ p u w rn rd rm => some ⟨.ldrh, ⟨p, u, w⟩, rn, rd, .reg rm⟩
  | .ldrsbImm _ p u w rn rd off => some ⟨.ldrsb, ⟨p, u, w⟩, rn, rd, offset8Imm off⟩
  | .ldrsbReg _ p u w rn rd rm => some ⟨.ldrsb, ⟨p, u, w⟩, rn, rd, .reg rm⟩
  | .ldrshImm _ p u w rn rd off => some ⟨.ldrsh, ⟨p, u, w⟩, rn, rd, offset8Imm off⟩
  | .ldrshReg _ p u w rn rd rm => some ⟨.ldrsh, ⟨p, u, w⟩, rn, rd, .reg rm⟩
  | .ldrdImm _ p u w rn rd off => some ⟨.ldrd, ⟨p, u, w⟩, rn, rd, offset8Imm off⟩
  | .ldrdReg _ p u w rn rd rm => some ⟨.ldrd, ⟨p, u, w⟩, rn, rd, .reg rm⟩
  | .strdImm _ p u w rn rd off => some ⟨.strd, ⟨p, u, w⟩, rn, rd, offset8Imm off⟩
  | .strdReg _ p u w rn rd rm => some ⟨.strd, ⟨p, u, w⟩, rn, rd, .reg rm⟩
  | .ldrImm _ u w rn rd off => some ⟨.ldr, ⟨true, u, w⟩, rn, rd, offset12 off⟩
  | .ldrImmPost _ u rn rd off => some ⟨.ldr, ⟨false, u, false⟩, rn, rd, offset12 off⟩
  | .ldrReg _ u w rn rd o => some ⟨.ldr, ⟨true, u, w⟩, rn, rd, .scaled o⟩
  | .ldrRegPost _ u rn rd o => some ⟨.ldr, ⟨false, u, false⟩, rn, rd, .scaled o⟩
  | .ldrtImm _ u rn rd off => some ⟨.ldrt, ⟨false, u, true⟩, rn, rd, offset12 off⟩
  | .ldrtReg _ u rn rd o => some ⟨.ldrt, ⟨false, u, true⟩, rn, rd, .scaled o⟩
  | .ldrbImm _ u w rn rd off => some ⟨.ldrb, ⟨true, u, w⟩, rn, rd, offset12 off⟩
  | .ldrbImmPost _ u rn rd off => some ⟨.ldrb, ⟨false, u, false⟩, rn, rd, offset12 off⟩
  | .ldrbReg _ u w rn rd o => some ⟨.ldrb, ⟨true, u, w⟩, rn, rd, .scaled o⟩
  | .ldrbRegPost _ u rn rd o => some ⟨.ldrb, ⟨false, u, false⟩, rn, rd, .scaled o⟩
  | .ldrbtImm _ u rn rd off => some ⟨.ldrb, ⟨false, u, true⟩, rn, rd, offset12 off⟩
  | .ldrbtReg _ u rn rd o => some ⟨.ldrb, ⟨false, u, true⟩, rn, rd, .scaled o⟩
  | .strImm _ u w rn rd off => some ⟨.str, ⟨true, u, w⟩, rn, rd, offset12 off⟩
  | .strImmPost _ u rn rd off => some ⟨.str, ⟨false, u, false⟩, rn, rd, offset12 off⟩
  | .strReg _ u w rn rd o => some ⟨.str, ⟨true, u, w⟩, rn, rd, .scaled o⟩
  | .strRegPost _ u rn rd o => some ⟨.str, ⟨false, u, false⟩, rn, rd, .scaled o⟩
  | .strtImm _ u rn rd off => some ⟨.str, ⟨false, u, true⟩, rn, rd, offset12 off⟩
  | .strtReg _ u rn rd o => some ⟨.str, ⟨false, u, true⟩, rn, rd, .scaled o⟩
  | .strbImm _ u w rn rd off => some ⟨.strb, ⟨true, u, w⟩, rn, rd, offset12 off⟩
  | .strbImmPost _ u rn rd off => some ⟨.strb, ⟨false, u, false⟩, rn, rd, offset12 off⟩
  | .strbReg _ u w rn rd o => some ⟨.strb, ⟨true, u, w⟩, rn, rd, .scaled o⟩
  | .strbRegPost _ u rn rd o => some ⟨.strb, ⟨false, u, false⟩, rn, rd, .scaled o⟩
  | .strbtImm _ u rn rd off => some ⟨.strb, ⟨false, u, true⟩, rn, rd, offset12 off⟩
  | .strbtReg _ u rn rd o => some ⟨.strb, ⟨false, u, true⟩, rn, rd, .scaled o⟩
  | _ => none

/-- `offAddr` of R402: the base plus or minus the offset (R401, R421). -/
def LsForm.offAddr (f : LsForm) (s : State) : Word :=
  let off := match f.o with
    | .imm v => v
    | .scaled o => (shiftByImm o.shift (s.reg o.rm) o.amount.toNat (flagC s.cpu.cpsr)).value
    | .reg rm => s.reg rm
  if f.x.u then s.reg f.rn + off else s.reg f.rn - off

/-- `addr` of R402. -/
def LsForm.addr (f : LsForm) (s : State) : Word := if f.x.p then f.offAddr s else s.reg f.rn

/-- `wb` of R402. -/
def LsForm.wb (f : LsForm) : Bool := f.x.p == false || f.x.w

/-- The register of a register offset. -/
def LsForm.rm (f : LsForm) : Option RegNo :=
  match f.o with
  | .imm _ => none
  | .scaled o => some o.rm
  | .reg rm => some rm

/-- Whether the form is of addressing mode 3 (R423). -/
def LsForm.mode3 (f : LsForm) : Bool := [LsKind.ldrh, .ldrsb, .ldrsh, .ldrd, .strh, .strd].contains f.kind

/-- The first restriction of R404, or of R423 and R440, that a form breaks. -/
def LsForm.trap (f : LsForm) (s : State) : Option UnpredictableReason :=
  if f.mode3 ∧ f.x.p = false ∧ f.x.w = true then some .postIndexWriteback
  else if f.wb = true ∧ f.rn = 15#4 then some .writebackPC
  else if f.rm = some 15#4 then some .lsRegPC
  else if f.wb = true ∧ f.rm = some f.rn then some .lsOverlap
  else match f.kind with
    | .ldr | .str => none
    | .ldrt | .ldrb | .ldrh | .ldrsb | .ldrsh => if f.rd = 15#4 then some .pcDestination else none
    | .strb | .strh => if f.rd = 15#4 then some .pcSource else none
    | .ldrd | .strd =>
      if f.rd.toNat % 2 = 1 then some .doubleRegOdd
      else if f.rd = 14#4 then some .pcDestination
      else if f.kind = .ldrd ∧ (f.rm = some f.rd ∨ f.rm = some (f.rd + 1#4)) then some .lsOverlap
      else if f.wb = true ∧ (f.rn = f.rd ∨ f.rn = f.rd + 1#4) then some .lsOverlap
      else if (f.addr s).toNat % 8 ≠ 0 then some .misalignedDoubleword
      else none

/-- The address of the word that holds a byte address. -/
def alignDown (a : Word) : Word := a - BitVec.ofNat 32 (a.toNat % 4)

/-- The lane of a byte address in its word (R110). -/
def laneOf (e : Endian) (a : Word) : Nat :=
  match e with
  | .little => a.toNat % 4
  | .big => 3 - a.toNat % 4

/-- The half lane of an address in its word (R110). -/
def halfLaneOf (e : Endian) (a : Word) : Nat :=
  match e with
  | .little => a.toNat / 2 % 2
  | .big => 1 - a.toNat / 2 % 2

/-- Byte `k` of a word. -/
def byteOf (w : Word) (k : Nat) : Byte := (w >>> (8 * k)).setWidth 8

/-- Halfword `k` of a word. -/
def halfOf (w : Word) (k : Nat) : BitVec 16 := (w >>> (16 * k)).setWidth 16

/-- What a single load makes of the word it read (R406, R411, R425 to R427). -/
def LsKind.loaded (k : LsKind) (e : Endian) (a w : Word) : Word :=
  match k with
  | .ldrb => (byteOf w (laneOf e a)).setWidth 32
  | .ldrsb => (byteOf w (laneOf e a)).signExtend 32
  | .ldrh => (halfOf w (halfLaneOf e a)).setWidth 32
  | .ldrsh => (halfOf w (halfLaneOf e a)).signExtend 32
  | _ => w.rotateRight (8 * (a.toNat % 4))

/-- The bytes of the word, by their number in the word, that a single store replaces (R114 to R116): the number of the
stored byte that goes to byte `k`, if any. -/
def LsKind.storedLane (k : LsKind) (e : Endian) (a : Word) (n : Nat) : Option Nat :=
  match k with
  | .strb => if n = laneOf e a then some 0 else none
  | .strh => if n / 2 = halfLaneOf e a then some (n % 2) else none
  | _ => some n

/-! ### Block transfers -/

/-- How many registers below `i` a list names: the slot of register `i` in the block (R471, R480). -/
def slotOf (list : BitVec 16) (i : Nat) : Nat := ((List.range i).filter fun k => list.getLsbD k).length

/-- The number of registers a list names (R471). -/
def listCount (list : BitVec 16) : Nat := slotOf list 16

/-- The lowest address of a block, by P and U (R471). -/
def blockLow (p u : Bool) (base : Word) (list : BitVec 16) : Word :=
  let bytes := BitVec.ofNat 32 (4 * listCount list)
  if u then (if p then base + 4#32 else base) else if p then base - bytes else base - bytes + 4#32

/-- The base after a block (R471). -/
def blockAfter (u : Bool) (base : Word) (list : BitVec 16) : Word :=
  let bytes := BitVec.ofNat 32 (4 * listCount list)
  if u then base + bytes else base - bytes

/-- The address of slot `k` of a block. -/
def slotAddr (low : Word) (k : Nat) : Word := low + BitVec.ofNat 32 (4 * k)

/-- The first restriction of R472 that a block transfer breaks. -/
def blockTrap (i : Instr) (s : State) : Option UnpredictableReason :=
  let common (rn : RegNo) (empty : Bool) (rest : Option UnpredictableReason) : Option UnpredictableReason :=
    if rn = 15#4 then some .writebackPC else if empty then some .emptyList else rest
  let user (w : Bool) : Option UnpredictableReason :=
    if w then some .userBankWriteback else if hasSpsr s.mode = false then some .userBankInUserMode else none
  match i with
  | .ldm _ _ _ w rn list =>
    common rn (list == 0#16) (if w ∧ list.getLsbD rn.toNat = true then some .lsOverlap else none)
  | .ldmUser _ _ _ w rn low => common rn (low == 0#15) (user w)
  | .ldmReturn _ _ _ w rn low =>
    common rn false (if w ∧ low.getLsbD rn.toNat = true then some .lsOverlap
      else if hasSpsr s.mode = false then some .noSPSR else none)
  | .stm _ _ _ w rn list =>
    common rn (list == 0#16)
      (if w ∧ list.getLsbD rn.toNat = true ∧ slotOf list rn.toNat ≠ 0 then some .lsOverlap else none)
  | .stmUser _ _ _ w rn list => common rn (list == 0#16) (user w)
  | _ => none

/-! ### The program counter -/

/-- What a load into r15 makes of the loaded word (R240, R407, R473): interworking on `v5`. -/
def State.loadedTarget (w : Word) (s : State) : Except StopReason Word :=
  if w.toNat % 4 = 0 then .ok w
  else if s.variant = .v5 ∧ w.toNat % 2 = 1 then .error (.unsupported (.thumbState w))
  else match s.params.misalignedPc with
    | .fault => .error (.unpredictable .misalignedPC)
    | .align => .ok (alignDown w)

/-! ### Coprocessor, UNDEFINED and halting rows -/

/-- The coprocessor number of a coprocessor instruction (R596); none for another instruction. -/
def coprocessorNumber (i : Instr) : Option (BitVec 4) :=
  match i with
  | .cdp _ _ _ _ cp _ _ => some cp
  | .mcr _ _ _ _ cp _ _ => some cp
  | .mrc _ _ _ _ cp _ _ => some cp
  | .stcV4 _ _ _ _ _ _ _ cp _ => some cp
  | .ldcV4 _ _ _ _ _ _ _ cp _ => some cp
  | .stcPre _ _ _ _ _ _ cp _ => some cp
  | .stcPostUp _ _ _ _ _ cp _ => some cp
  | .stcPostDown _ _ _ _ cp _ => some cp
  | .stcPostDownLong _ _ _ cp _ => some cp
  | .ldcPre _ _ _ _ _ _ cp _ => some cp
  | .ldcPostUp _ _ _ _ _ cp _ => some cp
  | .ldcPostDown _ _ _ _ cp _ => some cp
  | .ldcPostDownLong _ _ _ cp _ => some cp
  | .mcrr _ _ _ cp _ _ => some cp
  | .mrrc _ _ _ cp _ _ => some cp
  | .cdp2 _ _ _ cp _ _ => some cp
  | .mcr2 _ _ _ cp _ _ => some cp
  | .mrc2 _ _ _ cp _ _ => some cp
  | .stc2 _ _ _ _ _ _ cp _ => some cp
  | .ldc2 _ _ _ _ _ _ cp _ => some cp
  | _ => none

/-- The seven UNDEFINED rows (R195, R600) with their word; none for another instruction. -/
def undefinedRow (i : Instr) : Option Word :=
  match i with
  | .undefMedia w => some w
  | .undefMsrImm w => some w
  | .undefMul w => some w
  | .undefSwap21 w => some w
  | .undefSwap20 w => some w
  | .undefSwap23 w => some w
  | .undefMisc w => some w
  | _ => none

/-! ### Families -/

/-- The opcode table in three groups. -/
inductive Family where
  | dataProcessing | transfer | other
deriving DecidableEq, Repr

/-- The group of an instruction: data processing; loads, stores, swaps, preloads and block transfers; all others. -/
def familyOf (i : Instr) : Family :=
  if (lsForm i).isSome then .transfer
  else if (mulUsed i).isEmpty = false || (coprocessorNumber i).isSome || (undefinedRow i).isSome then .other
  else match i with
    | .swp .. | .swpb .. | .pldImm .. | .pldReg .. | .ldm .. | .ldmUser .. | .ldmReturn .. | .stm ..
    | .stmUser .. => .transfer
    | .clz .. | .qadd .. | .qsub .. | .qdadd .. | .qdsub ..
    | .b .. | .bl .. | .bx .. | .blxImm .. | .blxReg .. | .mrs .. | .msrImm .. | .msrReg .. | .swi .. | .bkpt ..
    | .nvV4 .. | .unpredUncond .. | .unpredLsx10 .. | .unpredLsx11 .. => .other
    | _ => .dataProcessing

/-! ### MSR and the saturating instructions -/

/-- MSR in its two forms (R532, R533). -/
def msrInstr (c : Cond) (r : Psr) (mask : BitVec 4) (o : ImmOp ⊕ RegNo) : Instr :=
  match o with
  | .inl x => .msrImm c r mask x
  | .inr rm => .msrReg c r mask rm

/-- The operand of MSR (R532, R533). -/
def msrOperand (o : ImmOp ⊕ RegNo) (s : State) : Word :=
  match o with
  | .inl x => (x.imm8.setWidth 32).rotateRight (2 * x.rotate.toNat)
  | .inr rm => s.reg rm

/-- The four saturating instructions (R562 to R565). -/
inductive SatOp where
  | qadd | qsub | qdadd | qdsub
deriving DecidableEq, Repr

/-- The instruction of a saturating opcode. -/
def satInstr (op : SatOp) (c : Cond) (rn rd rm : RegNo) : Instr :=
  match op with
  | .qadd => .qadd c rn rd rm
  | .qsub => .qsub c rn rd rm
  | .qdadd => .qdadd c rn rd rm
  | .qdsub => .qdsub c rn rd rm

/-- An exact integer held within the signed 32-bit range (R561). -/
def saturated (i : Int) : Int := max (-2147483648) (min i 2147483647)

/-- The exact sum or difference of a saturating opcode before the last saturation (R562 to R565). -/
def SatOp.exact (op : SatOp) (m n : Int) : Int :=
  match op with
  | .qadd => m + n
  | .qsub => m - n
  | .qdadd => m + saturated (2 * n)
  | .qdsub => m - saturated (2 * n)

/-- Whether a saturation happens (R561 to R565). -/
def SatOp.saturates (op : SatOp) (m n : Int) : Bool :=
  let last := saturated (op.exact m n) != op.exact m n
  match op with
  | .qadd | .qsub => last
  | .qdadd | .qdsub => saturated (2 * n) != 2 * n || last

/-! ### Bus calls that are answered, and that are not -/

/-- The bus read of a word address is answered with `w` (R105, R106): by a raw buffer with its word, or by a delegate with a
free value (log 7), the call recorded. -/
def State.Reads (a w : Word) (s t : State) : Prop :=
  match s.cpu.bus.resolve s.params.highAddr s.cpu.bus.readPages a with
  | .invalid _ => False
  | .raw p => w = s.mem.readWord p ∧ t = s
  | .delegate dev x =>
    w = delegateAnswer dev s.draws x ∧
    t = { s with draws := s.draws + 1, events := .read s.cur dev x w :: s.events }

/-- The bus write of a word address is made (R105, R106): to a raw buffer, or to a delegate, the call recorded. -/
def State.Writes (a v : Word) (s t : State) : Prop :=
  match s.cpu.bus.resolve s.params.highAddr s.cpu.bus.writePages a with
  | .invalid _ => False
  | .raw p => t = { s with mem := s.mem.writeWord p v }
  | .delegate dev x => t = { s with events := .write s.cur dev x v :: s.events }

/-- The bus read of a word address reaches the invalid accessor, reported with address `x` (R107, R108). -/
def State.ReadFaults (a x : Word) (s : State) : Prop :=
  s.cpu.bus.resolve s.params.highAddr s.cpu.bus.readPages a = .invalid x

/-- The bus write of a word address reaches the invalid accessor, reported with address `x` (R107, R108). -/
def State.WriteFaults (a x : Word) (s : State) : Prop :=
  s.cpu.bus.resolve s.params.highAddr s.cpu.bus.writePages a = .invalid x

/-- The bus reads of a list of addresses, in order, are answered with the words `ws`. -/
def State.ReadsAll : List Word → List Word → State → State → Prop
  | [], ws, s, t => ws = [] ∧ t = s
  | a :: as, ws, s, t => ∃ w rest s1, ws = w :: rest ∧ s.Reads a w s1 ∧ s1.ReadsAll as rest t

/-- The bus writes of the words `vs` to a list of addresses, in order, are made. -/
def State.WritesAll : List Word → List Word → State → State → Prop
  | [], vs, s, t => vs = [] ∧ t = s
  | a :: as, vs, s, t => ∃ v rest s1, vs = v :: rest ∧ s.Writes a v s1 ∧ s1.WritesAll as rest t

/-- The memory, the recorded delegate calls and the count of free values of `t` are those of `s`. -/
def SameBus (s t : State) : Prop := t.mem = s.mem ∧ t.events = s.events ∧ t.draws = s.draws

/-- The word addresses of `n` slots from `low` on, lowest first (R471, R480). -/
def wordAddrs (n : Nat) (low : Word) : List Word := (List.range n).map fun k => alignDown (slotAddr low k)

/-! ### Raw memory -/

/-- Both sides of the bus lead the word of an address to a raw buffer (R104, R105), its byte 0 at place `p`. -/
def State.rawAt (s : State) (a : Word) (p : Nat) : Prop :=
  s.cpu.bus.resolve s.params.highAddr s.cpu.bus.readPages (alignDown a) = .raw p ∧
  s.cpu.bus.resolve s.params.highAddr s.cpu.bus.writePages (alignDown a) = .raw p

/-- Both sides of the bus lead the words of a block to raw buffers, the byte 0 of slot `k` at `place k`. -/
def State.blockAt (s : State) (low : Word) (list : BitVec 16) (place : Nat → Nat) : Prop :=
  ∀ k < listCount list, s.rawAt (slotAddr low k) (place k)

end Sys2Proof.Machine
end

