-- ==== Sys2Proof/WellFormed.lean ====
section
/-! DEFINITION. When an `Instr` is an instruction of a variant: the variant has its row (R2, R3, the
`variants` of opcode_table.json), and the word that an UNDEFINED, UNPREDICTABLE or NV constructor keeps lies
in the row's pattern (R195, R196, R456, R602, R603). Every other field holds any value its width admits. -/

namespace Sys2Proof

/-- The word is in the row (R156): `w AND mask = value`. -/
def inRow (mask value w : Word) : Bool := w &&& mask == value

/-- The word is in the conditional space (R151). -/
def conditional (w : Word) : Bool := bits 28 4 w != 15#4

/-- A word of the miscellaneous space that no instruction of the variant has (R163, R195 (d)). -/
def isUndefMisc (v : Variant) (w : Word) : Bool :=
  conditional w && inRow 0x0F900000#32 0x01000000#32 w && !inRow 0x00000090#32 0x00000090#32 w &&
  !inRow 0x0FB000F0#32 0x01000000#32 w && !inRow 0x0FB000F0#32 0x01200000#32 w &&
  !inRow 0x0FF000F0#32 0x01200010#32 w &&
  (v == .v4 ||
    (!inRow 0x0FF000F0#32 0x01600010#32 w && !inRow 0x0FF000F0#32 0x01200030#32 w &&
     !inRow 0x0F9000F0#32 0x01000050#32 w && !inRow 0x0FF000F0#32 0x01200070#32 w &&
     !inRow 0x0F900090#32 0x01000080#32 w))

/-- A word of the unconditional space that is not BLX (immediate), PLD or a coprocessor form (R169, R603). -/
def isUnpredUncond (w : Word) : Bool :=
  !conditional w &&
  !inRow 0xFE000000#32 0xFA000000#32 w && !inRow 0xFF700000#32 0xF5500000#32 w &&
  !inRow 0xFF700010#32 0xF7500000#32 w && !inRow 0xFE000000#32 0xFC000000#32 w &&
  !inRow 0xFF000000#32 0xFE000000#32 w

/-- The instruction exists in the variant and its raw word, if it keeps one, is in its row. -/
def Instr.wellFormed (v : Variant) : Instr → Bool
  | .andImm _ _ _ _ _ => true
  | .andImmShift _ _ _ _ _ => true
  | .andRegShift _ _ _ _ _ => true
  | .eorImm _ _ _ _ _ => true
  | .eorImmShift _ _ _ _ _ => true
  | .eorRegShift _ _ _ _ _ => true
  | .subImm _ _ _ _ _ => true
  | .subImmShift _ _ _ _ _ => true
  | .subRegShift _ _ _ _ _ => true
  | .rsbImm _ _ _ _ _ => true
  | .rsbImmShift _ _ _ _ _ => true
  | .rsbRegShift _ _ _ _ _ => true
  | .addImm _ _ _ _ _ => true
  | .addImmShift _ _ _ _ _ => true
  | .addRegShift _ _ _ _ _ => true
  | .adcImm _ _ _ _ _ => true
  | .adcImmShift _ _ _ _ _ => true
  | .adcRegShift _ _ _ _ _ => true
  | .sbcImm _ _ _ _ _ => true
  | .sbcImmShift _ _ _ _ _ => true
  | .sbcRegShift _ _ _ _ _ => true
  | .rscImm _ _ _ _ _ => true
  | .rscImmShift _ _ _ _ _ => true
  | .rscRegShift _ _ _ _ _ => true
  | .tstImm _ _ _ _ => true
  | .tstImmShift _ _ _ _ => true
  | .tstRegShift _ _ _ _ => true
  | .teqImm _ _ _ _ => true
  | .teqImmShift _ _ _ _ => true
  | .teqRegShift _ _ _ _ => true
  | .cmpImm _ _ _ _ => true
  | .cmpImmShift _ _ _ _ => true
  | .cmpRegShift _ _ _ _ => true
  | .cmnImm _ _ _ _ => true
  | .cmnImmShift _ _ _ _ => true
  | .cmnRegShift _ _ _ _ => true
  | .orrImm _ _ _ _ _ => true
  | .orrImmShift _ _ _ _ _ => true
  | .orrRegShift _ _ _ _ _ => true
  | .movImm _ _ _ _ _ => true
  | .movImmShift _ _ _ _ _ => true
  | .movRegShift _ _ _ _ _ => true
  | .bicImm _ _ _ _ _ => true
  | .bicImmShift _ _ _ _ _ => true
  | .bicRegShift _ _ _ _ _ => true
  | .mvnImm _ _ _ _ _ => true
  | .mvnImmShift _ _ _ _ _ => true
  | .mvnRegShift _ _ _ _ _ => true
  | .mul _ _ _ _ _ => true
  | .mla _ _ _ _ _ _ => true
  | .umull _ _ _ _ _ _ => true
  | .umlal _ _ _ _ _ _ => true
  | .smull _ _ _ _ _ _ => true
  | .smlal _ _ _ _ _ _ => true
  | .smlaxy _ _ _ _ _ _ _ => v == .v5
  | .smlawy _ _ _ _ _ _ => v == .v5
  | .smulwy _ _ _ _ _ => v == .v5
  | .smlalxy _ _ _ _ _ _ _ => v == .v5
  | .smulxy _ _ _ _ _ _ => v == .v5
  | .swp _ _ _ _ => true
  | .swpb _ _ _ _ => true
  | .strhImm _ _ _ _ _ _ _ => true
  | .strhReg _ _ _ _ _ _ _ => true
  | .ldrhImm _ _ _ _ _ _ _ => true
  | .ldrhReg _ _ _ _ _ _ _ => true
  | .ldrsbImm _ _ _ _ _ _ _ => true
  | .ldrsbReg _ _ _ _ _ _ _ => true
  | .ldrshImm _ _ _ _ _ _ _ => true
  | .ldrshReg _ _ _ _ _ _ _ => true
  | .ldrdImm _ _ _ _ _ _ _ => v == .v5
  | .ldrdReg _ _ _ _ _ _ _ => v == .v5
  | .strdImm _ _ _ _ _ _ _ => v == .v5
  | .strdReg _ _ _ _ _ _ _ => v == .v5
  | .unpredLsx10 word => v == .v4 && conditional word && inRow 0x0E1000F0#32 0x000000D0#32 word
  | .unpredLsx11 word => v == .v4 && conditional word && inRow 0x0E1000F0#32 0x000000F0#32 word
  | .ldrImm _ _ _ _ _ _ => true
  | .ldrImmPost _ _ _ _ _ => true
  | .ldrReg _ _ _ _ _ _ => true
  | .ldrRegPost _ _ _ _ _ => true
  | .ldrtImm _ _ _ _ _ => true
  | .ldrtReg _ _ _ _ _ => true
  | .ldrbImm _ _ _ _ _ _ => true
  | .ldrbImmPost _ _ _ _ _ => true
  | .ldrbReg _ _ _ _ _ _ => true
  | .ldrbRegPost _ _ _ _ _ => true
  | .ldrbtImm _ _ _ _ _ => true
  | .ldrbtReg _ _ _ _ _ => true
  | .strImm _ _ _ _ _ _ => true
  | .strImmPost _ _ _ _ _ => true
  | .strReg _ _ _ _ _ _ => true
  | .strRegPost _ _ _ _ _ => true
  | .strtImm _ _ _ _ _ => true
  | .strtReg _ _ _ _ _ => true
  | .strbImm _ _ _ _ _ _ => true
  | .strbImmPost _ _ _ _ _ => true
  | .strbReg _ _ _ _ _ _ => true
  | .strbRegPost _ _ _ _ _ => true
  | .strbtImm _ _ _ _ _ => true
  | .strbtReg _ _ _ _ _ => true
  | .pldImm _ _ _ => v == .v5
  | .pldReg _ _ _ => v == .v5
  | .ldm _ _ _ _ _ _ => true
  | .ldmUser _ _ _ _ _ _ => true
  | .ldmReturn _ _ _ _ _ _ => true
  | .stm _ _ _ _ _ _ => true
  | .stmUser _ _ _ _ _ _ => true
  | .b _ _ => true
  | .bl _ _ => true
  | .bx _ _ => true
  | .blxImm _ _ => v == .v5
  | .blxReg _ _ => v == .v5
  | .mrs _ _ _ => true
  | .msrImm _ _ _ _ => true
  | .msrReg _ _ _ _ => true
  | .clz _ _ _ => v == .v5
  | .qadd _ _ _ _ => v == .v5
  | .qsub _ _ _ _ => v == .v5
  | .qdadd _ _ _ _ => v == .v5
  | .qdsub _ _ _ _ => v == .v5
  | .bkpt _ _ _ => v == .v5
  | .swi _ _ => true
  | .cdp _ _ _ _ _ _ _ => true
  | .mcr _ _ _ _ _ _ _ => true
  | .mrc _ _ _ _ _ _ _ => true
  | .stcV4 _ _ _ _ _ _ _ _ _ => v == .v4
  | .ldcV4 _ _ _ _ _ _ _ _ _ => v == .v4
  | .stcPre _ _ _ _ _ _ _ _ => v == .v5
  | .stcPostUp _ _ _ _ _ _ _ => v == .v5
  | .stcPostDown _ _ _ _ _ _ => v == .v5
  | .stcPostDownLong _ _ _ _ _ => v == .v5
  | .ldcPre _ _ _ _ _ _ _ _ => v == .v5
  | .ldcPostUp _ _ _ _ _ _ _ => v == .v5
  | .ldcPostDown _ _ _ _ _ _ => v == .v5
  | .ldcPostDownLong _ _ _ _ _ => v == .v5
  | .mcrr _ _ _ _ _ _ => v == .v5
  | .mrrc _ _ _ _ _ _ => v == .v5
  | .cdp2 _ _ _ _ _ _ => v == .v5
  | .mcr2 _ _ _ _ _ _ => v == .v5
  | .mrc2 _ _ _ _ _ _ => v == .v5
  | .stc2 _ _ _ _ _ _ _ _ => v == .v5
  | .ldc2 _ _ _ _ _ _ _ _ => v == .v5
  | .undefMedia word => conditional word && inRow 0x0E000010#32 0x06000010#32 word
  | .undefMsrImm word => conditional word && inRow 0x0FB00000#32 0x03000000#32 word
  | .undefMul word => conditional word && inRow 0x0FC000F0#32 0x00400090#32 word
  | .undefSwap21 word => conditional word && inRow 0x0F2000F0#32 0x01200090#32 word
  | .undefSwap20 word => conditional word && inRow 0x0F3000F0#32 0x01100090#32 word
  | .undefSwap23 word => conditional word && inRow 0x0FB000F0#32 0x01800090#32 word
  | .undefMisc word => isUndefMisc v word
  | .nvV4 word => v == .v4 && !conditional word
  | .unpredUncond word => v == .v5 && isUnpredUncond word

/-- The condition of an instruction (R151); none in the unconditional space. -/
def Instr.cond : Instr → Option Cond
  | .andImm c _ _ _ _ => some c
  | .andImmShift c _ _ _ _ => some c
  | .andRegShift c _ _ _ _ => some c
  | .eorImm c _ _ _ _ => some c
  | .eorImmShift c _ _ _ _ => some c
  | .eorRegShift c _ _ _ _ => some c
  | .subImm c _ _ _ _ => some c
  | .subImmShift c _ _ _ _ => some c
  | .subRegShift c _ _ _ _ => some c
  | .rsbImm c _ _ _ _ => some c
  | .rsbImmShift c _ _ _ _ => some c
  | .rsbRegShift c _ _ _ _ => some c
  | .addImm c _ _ _ _ => some c
  | .addImmShift c _ _ _ _ => some c
  | .addRegShift c _ _ _ _ => some c
  | .adcImm c _ _ _ _ => some c
  | .adcImmShift c _ _ _ _ => some c
  | .adcRegShift c _ _ _ _ => some c
  | .sbcImm c _ _ _ _ => some c
  | .sbcImmShift c _ _ _ _ => some c
  | .sbcRegShift c _ _ _ _ => some c
  | .rscImm c _ _ _ _ => some c
  | .rscImmShift c _ _ _ _ => some c
  | .rscRegShift c _ _ _ _ => some c
  | .tstImm c _ _ _ => some c
  | .tstImmShift c _ _ _ => some c
  | .tstRegShift c _ _ _ => some c
  | .teqImm c _ _ _ => some c
  | .teqImmShift c _ _ _ => some c
  | .teqRegShift c _ _ _ => some c
  | .cmpImm c _ _ _ => some c
  | .cmpImmShift c _ _ _ => some c
  | .cmpRegShift c _ _ _ => some c
  | .cmnImm c _ _ _ => some c
  | .cmnImmShift c _ _ _ => some c
  | .cmnRegShift c _ _ _ => some c
  | .orrImm c _ _ _ _ => some c
  | .orrImmShift c _ _ _ _ => some c
  | .orrRegShift c _ _ _ _ => some c
  | .movImm c _ _ _ _ => some c
  | .movImmShift c _ _ _ _ => some c
  | .movRegShift c _ _ _ _ => some c
  | .bicImm c _ _ _ _ => some c
  | .bicImmShift c _ _ _ _ => some c
  | .bicRegShift c _ _ _ _ => some c
  | .mvnImm c _ _ _ _ => some c
  | .mvnImmShift c _ _ _ _ => some c
  | .mvnRegShift c _ _ _ _ => some c
  | .mul c _ _ _ _ => some c
  | .mla c _ _ _ _ _ => some c
  | .umull c _ _ _ _ _ => some c
  | .umlal c _ _ _ _ _ => some c
  | .smull c _ _ _ _ _ => some c
  | .smlal c _ _ _ _ _ => some c
  | .smlaxy c _ _ _ _ _ _ => some c
  | .smlawy c _ _ _ _ _ => some c
  | .smulwy c _ _ _ _ => some c
  | .smlalxy c _ _ _ _ _ _ => some c
  | .smulxy c _ _ _ _ _ => some c
  | .swp c _ _ _ => some c
  | .swpb c _ _ _ => some c
  | .strhImm c _ _ _ _ _ _ => some c
  | .strhReg c _ _ _ _ _ _ => some c
  | .ldrhImm c _ _ _ _ _ _ => some c
  | .ldrhReg c _ _ _ _ _ _ => some c
  | .ldrsbImm c _ _ _ _ _ _ => some c
  | .ldrsbReg c _ _ _ _ _ _ => some c
  | .ldrshImm c _ _ _ _ _ _ => some c
  | .ldrshReg c _ _ _ _ _ _ => some c
  | .ldrdImm c _ _ _ _ _ _ => some c
  | .ldrdReg c _ _ _ _ _ _ => some c
  | .strdImm c _ _ _ _ _ _ => some c
  | .strdReg c _ _ _ _ _ _ => some c
  | .unpredLsx10 word => Cond.ofBits (bits 28 4 word)
  | .unpredLsx11 word => Cond.ofBits (bits 28 4 word)
  | .ldrImm c _ _ _ _ _ => some c
  | .ldrImmPost c _ _ _ _ => some c
  | .ldrReg c _ _ _ _ _ => some c
  | .ldrRegPost c _ _ _ _ => some c
  | .ldrtImm c _ _ _ _ => some c
  | .ldrtReg c _ _ _ _ => some c
  | .ldrbImm c _ _ _ _ _ => some c
  | .ldrbImmPost c _ _ _ _ => some c
  | .ldrbReg c _ _ _ _ _ => some c
  | .ldrbRegPost c _ _ _ _ => some c
  | .ldrbtImm c _ _ _ _ => some c
  | .ldrbtReg c _ _ _ _ => some c
  | .strImm c _ _ _ _ _ => some c
  | .strImmPost c _ _ _ _ => some c
  | .strReg c _ _ _ _ _ => some c
  | .strRegPost c _ _ _ _ => some c
  | .strtImm c _ _ _ _ => some c
  | .strtReg c _ _ _ _ => some c
  | .strbImm c _ _ _ _ _ => some c
  | .strbImmPost c _ _ _ _ => some c
  | .strbReg c _ _ _ _ _ => some c
  | .strbRegPost c _ _ _ _ => some c
  | .strbtImm c _ _ _ _ => some c
  | .strbtReg c _ _ _ _ => some c
  | .pldImm _ _ _ => none
  | .pldReg _ _ _ => none
  | .ldm c _ _ _ _ _ => some c
  | .ldmUser c _ _ _ _ _ => some c
  | .ldmReturn c _ _ _ _ _ => some c
  | .stm c _ _ _ _ _ => some c
  | .stmUser c _ _ _ _ _ => some c
  | .b c _ => some c
  | .bl c _ => some c
  | .bx c _ => some c
  | .blxImm _ _ => none
  | .blxReg c _ => some c
  | .mrs c _ _ => some c
  | .msrImm c _ _ _ => some c
  | .msrReg c _ _ _ => some c
  | .clz c _ _ => some c
  | .qadd c _ _ _ => some c
  | .qsub c _ _ _ => some c
  | .qdadd c _ _ _ => some c
  | .qdsub c _ _ _ => some c
  | .bkpt c _ _ => some c
  | .swi c _ => some c
  | .cdp c _ _ _ _ _ _ => some c
  | .mcr c _ _ _ _ _ _ => some c
  | .mrc c _ _ _ _ _ _ => some c
  | .stcV4 c _ _ _ _ _ _ _ _ => some c
  | .ldcV4 c _ _ _ _ _ _ _ _ => some c
  | .stcPre c _ _ _ _ _ _ _ => some c
  | .stcPostUp c _ _ _ _ _ _ => some c
  | .stcPostDown c _ _ _ _ _ => some c
  | .stcPostDownLong c _ _ _ _ => some c
  | .ldcPre c _ _ _ _ _ _ _ => some c
  | .ldcPostUp c _ _ _ _ _ _ => some c
  | .ldcPostDown c _ _ _ _ _ => some c
  | .ldcPostDownLong c _ _ _ _ => some c
  | .mcrr c _ _ _ _ _ => some c
  | .mrrc c _ _ _ _ _ => some c
  | .cdp2 _ _ _ _ _ _ => none
  | .mcr2 _ _ _ _ _ _ => none
  | .mrc2 _ _ _ _ _ _ => none
  | .stc2 _ _ _ _ _ _ _ _ => none
  | .ldc2 _ _ _ _ _ _ _ _ => none
  | .undefMedia word => Cond.ofBits (bits 28 4 word)
  | .undefMsrImm word => Cond.ofBits (bits 28 4 word)
  | .undefMul word => Cond.ofBits (bits 28 4 word)
  | .undefSwap21 word => Cond.ofBits (bits 28 4 word)
  | .undefSwap20 word => Cond.ofBits (bits 28 4 word)
  | .undefSwap23 word => Cond.ofBits (bits 28 4 word)
  | .undefMisc word => Cond.ofBits (bits 28 4 word)
  | .nvV4 word => Cond.ofBits (bits 28 4 word)
  | .unpredUncond word => Cond.ofBits (bits 28 4 word)

end Sys2Proof
end

