-- ==== Sys2Proof/Certificates/Slice0/Obligations.lean ====
section
/-! DEFINITION. The statements for the provers. Each docstring names the rules of spec/ it formalises and the
constructors of Instr it covers. -/

open Sys2Proof Sys2Proof.Machine Sys2Proof.Config

/-- R304, R305, R310, R311, R322 to R325: a logical opcode that writes a register other than r15, in each of its three
forms. Rd gets the bitwise result of Rn and the shifter value; with S the flags are N and Z of the result, C the
shifter carry, V kept; without S no flag changes; nothing else changes. That MOV and MVN shifted by a register run with
Rn = 15, a field that is SBZ and not examined (R154), is the model's reading of R154 against R276 (DEDUCED, log 11).
Constructors: and, eor, orr, mov, bic, mvn, each Imm, ImmShift, RegShift. -/
def Obligations.DataProcessingLogical : Prop :=
  ∀ (op : DpOp) (c : Cond) (sf : Bool) (rn rd : RegNo) (o : DpOperand) (s : State),
    op.logical = true → op.testsOnly = false → rd ≠ 15#4 → dpLegal op rn rd o = true →
    let r := op.value (s.reg rn) (o.shifted s).value (flagC s.cpu.cpsr)
    ∃ t, exec (dpInstr op c sf rn rd o) s = .next t ∧ t.reg rd = r ∧
      (sf = true → FlagsAre (r.getLsbD 31) (r == 0#32) (o.shifted s).carry (flagV s.cpu.cpsr) t) ∧
      Keeps [rd] (if sf then nzcvMask else 0#32) s t

/-- R302, R303, R305, R312 to R317: an arithmetic opcode that writes a register other than r15, in each of its three
forms. Rd gets the sum or difference modulo 2^32; with S the flags are N and Z of the result, C the unsigned carry or
"no borrow", V the signed overflow of the exact result; without S no flag changes; nothing else changes.
Constructors: sub, rsb, add, adc, sbc, rsc, each Imm, ImmShift, RegShift. -/
def Obligations.DataProcessingArithmetic : Prop :=
  ∀ (op : DpOp) (c : Cond) (sf : Bool) (rn rd : RegNo) (o : DpOperand) (s : State),
    op.logical = false → op.testsOnly = false → rd ≠ 15#4 → dpLegal op rn rd o = true →
    let a := s.reg rn
    let b := (o.shifted s).value
    let r := op.value a b (flagC s.cpu.cpsr)
    ∃ t, exec (dpInstr op c sf rn rd o) s = .next t ∧ t.reg rd = r ∧
      (sf = true → FlagsAre (r.getLsbD 31) (r == 0#32) (op.carryOut a.toNat b.toNat (flagC s.cpu.cpsr))
        (outOfRange32 (op.exact a.toInt b.toInt (flagC s.cpu.cpsr))) t) ∧
      Keeps [rd] (if sf then nzcvMask else 0#32) s t

/-- R303, R304, R306, R318 to R321: the compare and test opcodes write the four flags and nothing else, in each of
their three forms. That the register-shift form runs with Rd = 15, a field that is SBZ and not examined (R154), is the
model's reading of R154 against R276 (DEDUCED, log 11). Constructors: tst, teq, cmp, cmn, each Imm, ImmShift, RegShift. -/
def Obligations.CompareAndTest : Prop :=
  ∀ (op : DpOp) (c : Cond) (sf : Bool) (rn rd : RegNo) (o : DpOperand) (s : State),
    op.testsOnly = true → dpLegal op rn rd o = true →
    let a := s.reg rn
    let b := (o.shifted s).value
    let r := op.value a b (flagC s.cpu.cpsr)
    ∃ t, exec (dpInstr op c sf rn rd o) s = .next t ∧
      FlagsAre (r.getLsbD 31) (r == 0#32)
        (if op.logical then (o.shifted s).carry else op.carryOut a.toNat b.toNat (flagC s.cpu.cpsr))
        (if op.logical then flagV s.cpu.cpsr else outOfRange32 (op.exact a.toInt b.toInt (flagC s.cpu.cpsr))) t ∧
      Keeps [] nzcvMask s t

/-- R305, R240: Rd = 15 with S = 0 in the twenty-four forms that
can write it so (the register-shift form raises). An aligned result becomes the target of the
program counter; an unaligned one halts the CPU when MISALIGNED_PC is fault and is aligned when it is align; the flags
and every other field stay. -/
def Obligations.DataProcessingBranch : Prop :=
  ∀ (op : DpOp) (c : Cond) (rn : RegNo) (o : DpOperand) (s : State),
    op.testsOnly = false → dpLegal op rn 15#4 o = true →
    let r := op.value (s.reg rn) (o.shifted s).value (flagC s.cpu.cpsr)
    let i := dpInstr op c false rn 15#4 o
    (r.toNat % 4 = 0 → exec i s = .next (s.setCpu { s.cpu with pendingPC := some r })) ∧
    (r.toNat % 4 ≠ 0 → s.params.misalignedPc = .fault → exec i s = .next (s.halt (.unpredictable .misalignedPC))) ∧
    (r.toNat % 4 ≠ 0 → s.params.misalignedPc = .align →
      exec i s = .next (s.setCpu { s.cpu with pendingPC := some (r - BitVec.ofNat 32 (r.toNat % 4)) }))

/-- R305, R536, R644, R622, R240: Rd = 15 with S = 1 in a mode with an SPSR, the return from an exception, in the
twenty-four forms that can (the register-shift form raises). An SPSR with T = 1 halts with ThumbState (its target, the
result, by log 12), one with an invalid mode with InvalidMode, an unaligned result with MisalignedPC when MISALIGNED_PC is
fault, before any write; else CPSR becomes the SPSR (within PSR_MASK), the bank of the old mode is saved and that of the
new mode loaded, and the result, aligned when MISALIGNED_PC is align, is the target of the program counter. The ALU flags
are not written. A mode without SPSR is OperandRestrictions. -/
def Obligations.DataProcessingReturn : Prop :=
  ∀ (op : DpOp) (c : Cond) (rn : RegNo) (o : DpOperand) (s : State),
    op.testsOnly = false → dpLegal op rn 15#4 o = true → hasSpsr s.mode = true →
    let r := op.value (s.reg rn) (o.shifted s).value (flagC s.cpu.cpsr)
    let i := dpInstr op c true rn 15#4 o
    match s.returnTarget s.cpu.spsr r with
    | .ok target => ∃ t, exec i s = .next t ∧ t.cpu.pendingPC = some target ∧
        t.cpu.cpsr = s.returnCpsr s.cpu.spsr ∧ SwitchesBank s t ∧ KeepsBlock s t ∧ KeepsBus s t
    | .error why => exec i s = .next (s.halt why)

/-- R271 to R275: the shifter of the immediate and the immediate-shift forms, bit by bit and by exact arithmetic: LSL and
LSR multiply and divide, ASR divides the signed value towards minus infinity, ROR moves each bit; the encoded amount 0 is
LSL by 0, LSR and ASR by 32 and RRX. -/
def Obligations.ShifterByImmediate : Prop :=
  ∀ (im : ImmOp) (o : ShiftImmOp) (s : State),
    let c := flagC s.cpu.cpsr
    let y := (DpOperand.imm im).shifted s
    let x := (DpOperand.immShift o).shifted s
    let m := s.reg o.rm
    let n := o.amount.toNat
    (∀ i < 32, y.value.getLsbD i = im.imm8.getLsbD ((i + 2 * im.rotate.toNat) % 32)) ∧
    y.carry = (if im.rotate = 0#4 then c else y.value.getLsbD 31) ∧
    match o.shift with
    | .lsl => x.value.toNat = m.toNat * 2 ^ n % 2 ^ 32 ∧ x.carry = if n = 0 then c else m.getLsbD (32 - n)
    | .lsr =>
      let k := if n = 0 then 32 else n
      x.value.toNat = m.toNat / 2 ^ k ∧ x.carry = m.getLsbD (k - 1)
    | .asr =>
      let k := if n = 0 then 32 else n
      x.value.toInt = m.toInt / 2 ^ k ∧ x.carry = m.getLsbD (k - 1)
    | .ror =>
      if n = 0 then x.value.toNat = m.toNat / 2 + (if c then 2 ^ 31 else 0) ∧ x.carry = m.getLsbD 0
      else (∀ i < 32, x.value.getLsbD i = m.getLsbD ((i + n) % 32)) ∧ x.carry = m.getLsbD (n - 1)

/-- R276: the shifter of the register-shift form, the amount the low byte of Rs: amount 0 keeps value and carry; LSL and LSR
by 32 or more give 0, ASR the sign; ROR takes the amount modulo 32. -/
def Obligations.ShifterByRegister : Prop :=
  ∀ (o : ShiftRegOp) (s : State),
    let x := (DpOperand.regShift o).shifted s
    let m := s.reg o.rm
    let n := (s.reg o.rs).toNat % 256
    if n = 0 then x.value = m ∧ x.carry = flagC s.cpu.cpsr
    else match o.shift with
      | .lsl => x.value.toNat = m.toNat * 2 ^ n % 2 ^ 32 ∧ x.carry = if n ≤ 32 then m.getLsbD (32 - n) else false
      | .lsr => x.value.toNat = m.toNat / 2 ^ n ∧ x.carry = m.getLsbD (n - 1)
      | .asr => x.value.toInt = m.toInt / 2 ^ n ∧ x.carry = m.getLsbD (min n 32 - 1)
      | .ror => (∀ i < 32, x.value.getLsbD i = m.getLsbD ((i + n) % 32)) ∧ x.carry = m.getLsbD ((n - 1) % 32)


/-- R351, R353, R352: MUL and MLA within R350. Rd gets the product, or the product plus Rn, modulo 2^32; with S the
flags N and Z are those of the result and V is kept, and on `v5` C is kept (on `v4` it is a free value, log 6); nothing
else changes but, on `v4` with S, the count of free values drawn. Constructors: mul, mla. -/
def Obligations.MultiplyWord : Prop :=
  ∀ (c : Cond) (sf : Bool) (rd rn rs rm : RegNo) (s : State),
    rd ≠ 15#4 → rs ≠ 15#4 → rm ≠ 15#4 → rd ≠ rm →
    let done (r : Word) (t : State) : Prop :=
      t.reg rd = r ∧
      (sf = true → flagN t.cpu.cpsr = r.getLsbD 31 ∧ flagZ t.cpu.cpsr = (r == 0#32) ∧
        flagV t.cpu.cpsr = flagV s.cpu.cpsr ∧ (s.variant = .v5 → flagC t.cpu.cpsr = flagC s.cpu.cpsr)) ∧
      KeepsCpu [rd] (if sf then nzcvMask else 0#32) s t ∧ KeepsBlock s t ∧ t.cpu.pendingPC = s.cpu.pendingPC ∧
      (∀ a : Nat, t.mem.read a = s.mem.read a) ∧ t.events = s.events
    (∃ t, exec (.mul c sf rd rs rm) s = .next t ∧ done (s.reg rm * s.reg rs) t) ∧
    (rn ≠ 15#4 → ∃ t, exec (.mla c sf rd rn rs rm) s = .next t ∧ done (s.reg rm * s.reg rs + s.reg rn) t)

/-- R354 to R357, R352: the long multiplies within R350. RdHi : RdLo gets the unsigned or signed 64-bit product, or that
product plus the old RdHi : RdLo, modulo 2^64; with S the flags N and Z are those of the 64-bit result, and on `v5` C and
V are kept (on `v4` they are free values, log 6); nothing else changes but, on `v4` with S, the count of free values
drawn. Constructors: umull, umlal, smull, smlal. -/
def Obligations.MultiplyLong : Prop :=
  ∀ (c : Cond) (sf : Bool) (hi lo rs rm : RegNo) (s : State),
    hi ≠ 15#4 → lo ≠ 15#4 → rs ≠ 15#4 → rm ≠ 15#4 → hi ≠ lo → hi ≠ rm → lo ≠ rm →
    let done (r : BitVec 64) (t : State) : Prop :=
      t.reg hi ++ t.reg lo = r ∧
      (sf = true → flagN t.cpu.cpsr = r.getLsbD 63 ∧ flagZ t.cpu.cpsr = (r == 0#64) ∧
        (s.variant = .v5 → flagC t.cpu.cpsr = flagC s.cpu.cpsr ∧ flagV t.cpu.cpsr = flagV s.cpu.cpsr)) ∧
      KeepsCpu [hi, lo] (if sf then nzcvMask else 0#32) s t ∧ KeepsBlock s t ∧
      t.cpu.pendingPC = s.cpu.pendingPC ∧ (∀ a : Nat, t.mem.read a = s.mem.read a) ∧ t.events = s.events
    let unsigned : BitVec 64 := (s.reg rm).setWidth 64 * (s.reg rs).setWidth 64
    let signed : BitVec 64 := (s.reg rm).signExtend 64 * (s.reg rs).signExtend 64
    let old : BitVec 64 := s.reg hi ++ s.reg lo
    (∃ t, exec (.umull c sf hi lo rs rm) s = .next t ∧ done unsigned t) ∧
    (∃ t, exec (.umlal c sf hi lo rs rm) s = .next t ∧ done (unsigned + old) t) ∧
    (∃ t, exec (.smull c sf hi lo rs rm) s = .next t ∧ done signed t) ∧
    (∃ t, exec (.smlal c sf hi lo rs rm) s = .next t ∧ done (signed + old) t)

/-- R360 to R365: the halfword and word-by-halfword multiplies within R350. The products are signed; SMLA and SMLAW set Q
on `v5` when the exact sum leaves 32 bits and never clear it; N, Z, C, V and everything else stay.
Constructors: smulxy, smulwy, smlaxy, smlawy, smlalxy. -/
def Obligations.MultiplyHalfword : Prop :=
  ∀ (c : Cond) (rd rn rs rm : RegNo) (x y : Half) (s : State),
    rd ≠ 15#4 → rn ≠ 15#4 → rs ≠ 15#4 → rm ≠ 15#4 →
    let p32 : Word := (halfPart x (s.reg rm)).signExtend 32 * (halfPart y (s.reg rs)).signExtend 32
    let w32 : Word := ((s.reg rm).signExtend 64 * (halfPart y (s.reg rs)).signExtend 64).extractLsb' 16 32
    let accumulated (p : Word) (t : State) : Prop :=
      t.reg rd = p + s.reg rn ∧
      flagQ t.cpu.cpsr = (flagQ s.cpu.cpsr ||
        (s.variant == .v5 && outOfRange32 (p.toInt + (s.reg rn).toInt))) ∧
      Keeps [rd] 0x08000000#32 s t
    (∃ t, exec (.smulxy c rd rs y x rm) s = .next t ∧ t.reg rd = p32 ∧ Keeps [rd] 0#32 s t) ∧
    (∃ t, exec (.smulwy c rd rs y rm) s = .next t ∧ t.reg rd = w32 ∧ Keeps [rd] 0#32 s t) ∧
    (∃ t, exec (.smlaxy c rd rn rs y x rm) s = .next t ∧ accumulated p32 t) ∧
    (∃ t, exec (.smlawy c rd rn rs y rm) s = .next t ∧ accumulated w32 t) ∧
    (rd ≠ rn → ∃ t, exec (.smlalxy c rd rn rs y x rm) s = .next t ∧
      t.reg rd ++ t.reg rn = p32.signExtend 64 + (s.reg rd ++ s.reg rn) ∧ Keeps [rd, rn] 0#32 s t)

/-- R276, R305, R350: a data-processing or multiply instruction that breaks a restriction halts and changes nothing else of
the block. A register-shift form with a used register field 15 halts with RegShiftPC, whatever the opcode; S = 1 with Rd = 15
in a mode without SPSR halts with NoSPSR; a multiply that uses r15 halts with MulPC, else one whose registers overlap with
MulOverlap. The fields that are SBZ (Rn of MOV and MVN, Rd of the tests) are not examined (R154, log 11). Constructors: the
forty-eight of dpInstr, the eleven multiplies. -/
def Obligations.OperandRestrictions : Prop :=
  ∀ (op : DpOp) (c : Cond) (sf : Bool) (rn rd : RegNo) (o : DpOperand) (i : Instr) (s : State),
    (dpLegal op rn rd o = false →
      exec (dpInstr op c sf rn rd o) s = .next (s.halt (.unpredictable .regShiftPC))) ∧
    (dpLegal op rn 15#4 o = true → op.testsOnly = false → hasSpsr s.mode = false →
      exec (dpInstr op c true rn 15#4 o) s = .next (s.halt (.unpredictable .noSPSR))) ∧
    (15#4 ∈ mulUsed i → exec i s = .next (s.halt (.unpredictable .mulPC))) ∧
    (15#4 ∉ mulUsed i → mulOverlaps i = true → exec i s = .next (s.halt (.unpredictable .mulOverlap)))


/-- R402, R403, R406, R410, R411, R414, R415, R425 to R427, R432: a single load into r0 to r14 whose form breaks no
restriction and whose bus read is answered. Rd gets the loaded word rotated, or the byte or halfword of the lane of the
address, zero or sign extended; the base gets the offset address when the form writes back, before the load's own write
when P = 1 and after it when P = 0; the bus read is the only bus call; no flag and nothing else changes.
Constructors: ldr, ldrb (Imm, ImmPost, Reg, RegPost), ldrt, ldrbt, ldrh, ldrsb, ldrsh (Imm, Reg). -/
def Obligations.LoadResult : Prop :=
  ∀ (i : Instr) (f : LsForm) (s s1 : State) (w : Word),
    lsForm i = some f → f.kind ∈ [LsKind.ldr, .ldrt, .ldrb, .ldrh, .ldrsb, .ldrsh] → f.rd ≠ 15#4 →
    f.trap s = none → s.busRead32 (alignDown (f.addr s)) = .done w s1 →
    let v := f.kind.loaded s.endian (f.addr s) w
    ∃ t, exec i s = .next t ∧
      t.reg f.rd = (if f.x.p = false ∧ f.rn = f.rd then f.offAddr s else v) ∧
      (f.wb = true → f.rn ≠ f.rd → t.reg f.rn = f.offAddr s) ∧
      KeepsCpu (f.rd :: if f.wb then [f.rn] else []) 0#32 s t ∧ KeepsBlock s t ∧
      t.cpu.pendingPC = s.cpu.pendingPC ∧ (∀ a : Nat, t.mem.read a = s.mem.read a) ∧
      t.events = s1.events ∧ t.draws = s1.draws

/-- R407, R240: LDR into r15 from an aligned address. The loaded word becomes the target of the program counter when its
bits 1:0 are 0; bit 0 set halts with ThumbState on `v5`; another unaligned word halts with MisalignedPC when MISALIGNED_PC
is fault and is aligned when it is align; an unaligned address halts with MisalignedPCLoad before the bus read. A halt
leaves the base unchanged. Constructors: ldrImm, ldrImmPost, ldrReg, ldrRegPost. -/
def Obligations.LoadProgramCounter : Prop :=
  ∀ (i : Instr) (f : LsForm) (s : State),
    lsForm i = some f → f.kind = .ldr → f.rd = 15#4 → f.trap s = none →
    ((f.addr s).toNat % 4 ≠ 0 → exec i s = .next (s.halt (.unpredictable .misalignedPCLoad))) ∧
    ∀ (w : Word) (s1 : State), (f.addr s).toNat % 4 = 0 → s.busRead32 (f.addr s) = .done w s1 →
      let halts (why : StopReason) : Prop := exec i s = .next (s1.halt why)
      let goes (target : Word) : Prop := ∃ t, exec i s = .next t ∧ t.cpu.pendingPC = some target ∧
        (f.wb = true → t.reg f.rn = f.offAddr s) ∧ KeepsCpu (if f.wb then [f.rn] else []) 0#32 s t ∧
        KeepsBlock s t ∧ (∀ a : Nat, t.mem.read a = s.mem.read a) ∧ t.events = s1.events ∧ t.draws = s1.draws
      match s.loadedTarget w with
      | .ok target => goes target
      | .error why => halts why

/-- R402, R403, R408, R412, R413, R416, R417, R428, R114 to R116, R123: a single store whose form breaks no restriction. To
raw memory: the word, halfword or byte of Rd (PC + 8 for r15) replaces the lanes of the containing word that the form
stores to, every other byte of memory reads as before, the base is written back when the form says so, and nothing else
changes; bits 1:0 of a word address and bit 0 of a halfword address are ignored. To any accessor that answers, a delegate
included: a word store makes one bus write of Rd; a sub-word store makes a bus read and then a bus write of the word read
with the lanes replaced, each call to a delegate recorded.
Constructors: str, strb (Imm, ImmPost, Reg, RegPost), strt, strbt, strh (Imm, Reg). -/
def Obligations.StoreResult : Prop :=
  ∀ (i : Instr) (f : LsForm) (s : State),
    lsForm i = some f → f.kind ∈ [LsKind.str, .strb, .strh] → f.trap s = none →
    let a := alignDown (f.addr s)
    let lane (n : Nat) := f.kind.storedLane s.endian (f.addr s) n
    let rest (t : State) : Prop := (f.wb = true → t.reg f.rn = f.offAddr s) ∧
      KeepsCpu (if f.wb then [f.rn] else []) 0#32 s t ∧ KeepsBlock s t ∧ t.cpu.pendingPC = s.cpu.pendingPC
    (∀ p : Nat, s.mem.wf = true → s.rawAt (f.addr s) p →
      ∃ t, exec i s = .next t ∧ rest t ∧ t.mem.wf = true ∧
        (∀ n < 4, t.mem.read (p + n) = match lane n with
          | some k => byteOf (s.reg f.rd) k
          | none => s.mem.read (p + n)) ∧
        (∀ b : Nat, (b < p ∨ p + 4 ≤ b) → t.mem.read b = s.mem.read b) ∧ t.events = s.events ∧ t.draws = s.draws) ∧
    (∀ s1 : State, f.kind = .str → s.Writes a (s.reg f.rd) s1 → ∃ t, exec i s = .next t ∧ rest t ∧ SameBus s1 t) ∧
    (∀ (w v : Word) (s1 s2 : State), f.kind ≠ .str → s.Reads a w s1 →
      (∀ n < 4, byteOf v n = match lane n with
        | some k => byteOf (s.reg f.rd) k
        | none => byteOf w n) →
      s1.Writes a v s2 → ∃ t, exec i s = .next t ∧ rest t ∧ SameBus s2 t)

/-- R440, R441, R403: LDRD whose form breaks no restriction and whose two bus reads are answered, the second at the
address plus 4. Rd gets the first word and the next register the second, the base is written back when the form says so,
and nothing else changes. Constructors: ldrdImm, ldrdReg. -/
def Obligations.LoadDouble : Prop :=
  ∀ (i : Instr) (f : LsForm) (s s1 s2 : State) (v0 v1 : Word),
    lsForm i = some f → f.kind = .ldrd → f.trap s = none →
    s.busRead32 (f.addr s) = .done v0 s1 → s1.busRead32 (f.addr s + 4#32) = .done v1 s2 →
    ∃ t, exec i s = .next t ∧ t.reg f.rd = v0 ∧ t.reg (f.rd + 1#4) = v1 ∧
      (f.wb = true → t.reg f.rn = f.offAddr s) ∧
      KeepsCpu (f.rd :: (f.rd + 1#4) :: if f.wb then [f.rn] else []) 0#32 s t ∧ KeepsBlock s t ∧
      t.cpu.pendingPC = s.cpu.pendingPC ∧ (∀ a : Nat, t.mem.read a = s.mem.read a) ∧
      t.events = s2.events ∧ t.draws = s2.draws

/-- R440, R442, R403: STRD whose form breaks no restriction. Rd goes to the address, then the next register to the address
plus 4; to raw memory every other byte reads as before; to any accessor that answers, a delegate included, the two bus
writes are made in that order, each call to a delegate recorded. The base is written back when the form says so, and
nothing else changes. Constructors: strdImm, strdReg. -/
def Obligations.StoreDouble : Prop :=
  ∀ (i : Instr) (f : LsForm) (s : State),
    lsForm i = some f → f.kind = .strd → f.trap s = none →
    let rest (t : State) : Prop := (f.wb = true → t.reg f.rn = f.offAddr s) ∧
      KeepsCpu (if f.wb then [f.rn] else []) 0#32 s t ∧ KeepsBlock s t ∧ t.cpu.pendingPC = s.cpu.pendingPC
    (∀ p q : Nat, s.mem.wf = true → s.rawAt (f.addr s) p → s.rawAt (f.addr s + 4#32) q →
      ∃ t, exec i s = .next t ∧ rest t ∧ t.mem.wf = true ∧
        (∀ a : Nat, t.mem.read a =
          if q ≤ a ∧ a < q + 4 then byteOf (s.reg (f.rd + 1#4)) (a - q)
          else if p ≤ a ∧ a < p + 4 then byteOf (s.reg f.rd) (a - p)
          else s.mem.read a) ∧ t.events = s.events ∧ t.draws = s.draws) ∧
    (∀ s1 s2 : State, s.Writes (f.addr s) (s.reg f.rd) s1 → s1.Writes (f.addr s + 4#32) (s.reg (f.rd + 1#4)) s2 →
      ∃ t, exec i s = .next t ∧ rest t ∧ SameBus s2 t)

/-- R107, R403, R15, R104, R115, R116, R441, R442, R450, R451: a single load or store whose form breaks no restriction, or a
swap within R450, that reaches the invalid accessor halts with BusFault and writes no register; the bus calls made before
stay, and there are no others. The first access of every form; the second read of LDRD; the second write of STRD, the first
store kept; the write side of STRB, STRH, SWP and SWPB after the read side answered.
Constructors: the thirty-six of lsForm, swp, swpb. -/
def Obligations.LoadStoreBusFault : Prop :=
  ∀ (i : Instr) (f : LsForm) (c : Cond) (rn rd rm : RegNo) (s s1 s2 : State) (v w x : Word),
    let halts (i : Instr) (t : State) : Prop := exec i s = .next (t.halt (.busFault x))
    let a := alignDown (f.addr s)
    let b := alignDown (s.reg rn)
    (lsForm i = some f → f.trap s = none → (f.kind = .ldr ∧ f.rd = 15#4 → (f.addr s).toNat % 4 = 0) →
      (f.kind ∈ [LsKind.str, .strd] → s.WriteFaults a x → halts i s) ∧
      (f.kind ∉ [LsKind.str, .strd] → s.ReadFaults a x → halts i s) ∧
      (f.kind ∈ [LsKind.strb, .strh] → s.Reads a w s1 → s.WriteFaults a x → halts i s1) ∧
      (f.kind = .ldrd → s.Reads a w s1 → s.ReadFaults (a + 4#32) x → halts i s1) ∧
      (f.kind = .strd → s.Writes a (s.reg f.rd) s1 → s.WriteFaults (a + 4#32) x → halts i s1)) ∧
    (rn ≠ 15#4 → rd ≠ 15#4 → rm ≠ 15#4 → rn ≠ rm → rn ≠ rd →
      (s.ReadFaults b x → halts (.swp c rn rd rm) s ∧ halts (.swpb c rn rd rm) s) ∧
      (s.Reads b v s1 → s.WriteFaults b x → halts (.swp c rn rd rm) s1) ∧
      (s.Reads b v s1 → s1.Reads b w s2 → s.WriteFaults b x → halts (.swpb c rn rd rm) s2))

/-- R450, R451, R133, R123: SWP and SWPB. At an address that both sides of the bus lead to one raw buffer Rd gets the old
word rotated, or the old byte of the lane; the word, or the byte of the lane, becomes Rm; every other byte of memory and
everything else stays. At any accessor that answers, a delegate included, SWP makes a bus read and a bus write; SWPB makes
a read for Rd, and a read and a write for the store, each call to a delegate recorded; all in one step. r15 as a register
halts with SwapPC, Rn equal to Rm or Rd with SwapOverlap. Constructors: swp, swpb. -/
def Obligations.Swap : Prop :=
  ∀ (c : Cond) (rn rd rm : RegNo) (s : State),
    let a := s.reg rn
    let both (why : StopReason) : Prop :=
      exec (.swp c rn rd rm) s = .next (s.halt why) ∧ exec (.swpb c rn rd rm) s = .next (s.halt why)
    let rest (t : State) : Prop := KeepsCpu [rd] 0#32 s t ∧ KeepsBlock s t ∧ t.cpu.pendingPC = s.cpu.pendingPC
    let frame (t : State) (p : Nat) : Prop :=
      (∀ b : Nat, (b < p ∨ p + 4 ≤ b) → t.mem.read b = s.mem.read b) ∧ t.mem.wf = true ∧ rest t ∧
      t.events = s.events ∧ t.draws = s.draws
    (rn = 15#4 ∨ rd = 15#4 ∨ rm = 15#4 → both (.unpredictable .swapPC)) ∧
    (rn ≠ 15#4 → rd ≠ 15#4 → rm ≠ 15#4 → rn = rm ∨ rn = rd → both (.unpredictable .swapOverlap)) ∧
    (rn ≠ 15#4 → rd ≠ 15#4 → rm ≠ 15#4 → rn ≠ rm → rn ≠ rd →
      (∀ p : Nat, s.mem.wf = true → s.rawAt a p →
        (∃ t, exec (.swp c rn rd rm) s = .next t ∧
          t.reg rd = (s.mem.readWord p).rotateRight (8 * (a.toNat % 4)) ∧
          t.mem.readWord p = s.reg rm ∧ frame t p) ∧
        (∃ t, exec (.swpb c rn rd rm) s = .next t ∧
          t.reg rd = (s.mem.read (p + laneOf s.endian a)).setWidth 32 ∧
          (∀ n < 4, t.mem.read (p + n) =
            if n = laneOf s.endian a then (s.reg rm).setWidth 8 else s.mem.read (p + n)) ∧ frame t p)) ∧
      (∀ (w : Word) (s1 s2 : State), s.Reads (alignDown a) w s1 → s1.Writes (alignDown a) (s.reg rm) s2 →
        ∃ t, exec (.swp c rn rd rm) s = .next t ∧ t.reg rd = w.rotateRight (8 * (a.toNat % 4)) ∧ rest t ∧
          SameBus s2 t) ∧
      (∀ (w w2 v : Word) (s1 s2 s3 : State), s.Reads (alignDown a) w s1 → s1.Reads (alignDown a) w2 s2 →
        (∀ n < 4, byteOf v n = if n = laneOf s.endian a then (s.reg rm).setWidth 8 else byteOf w2 n) →
        s2.Writes (alignDown a) v s3 →
        ∃ t, exec (.swpb c rn rd rm) s = .next t ∧ t.reg rd = (byteOf w (laneOf s.endian a)).setWidth 32 ∧ rest t ∧
          SameBus s3 t))

/-- R117: with a word stored at an aligned raw address A, byte loads at A to A + 3 give its bytes from the low end with
ENDIAN little and from the high end with ENDIAN big, and halfword loads at A and A + 2 give its halves likewise. -/
def Obligations.MixedWidthView : Prop :=
  ∀ (s : State) (a v : Word) (p : Nat),
    s.mem.wf = true → a.toNat % 4 = 0 → s.rawAt a p →
    ∃ t, s.memWrite32 a v = .done () t ∧
      (∀ n < 4, ∃ u, t.memRead8 (a + BitVec.ofNat 32 n) = .done (byteOf v (match s.endian with
        | .little => n
        | .big => 3 - n)) u) ∧
      (∀ n < 2, ∃ u, t.memRead16 (a + BitVec.ofNat 32 (2 * n)) = .done (halfOf v (match s.endian with
        | .little => n
        | .big => 1 - n)) u)
/-- R471, R473, R474, R480: LDM within R472 whose bus reads, one for each listed register from the lowest address up, are
answered with the words `ws`, by raw memory or by delegates (each such call recorded). The listed registers get the words,
the lowest register that of the lowest address; the base is written back with W = 1; with r15 listed the highest word becomes
the target of the program counter, or halts before any register is written when `pc <-` refuses it; no flag, no memory byte and
nothing else changes. Constructor: ldm. -/
def Obligations.LoadMultiple : Prop :=
  ∀ (c : Cond) (p u w : Bool) (rn : RegNo) (list : BitVec 16) (s s1 : State) (ws : List Word),
    let i : Instr := .ldm c p u w rn list
    blockTrap i s = none → s.ReadsAll (wordAddrs (listCount list) (blockLow p u (s.reg rn) list)) ws s1 →
    let word (n : RegNo) : Word := ws.getD (slotOf list n.toNat) 0#32
    let goes (pending : Option Word) : Prop := ∃ t, exec i s = .next t ∧
      (∀ n : RegNo, n ≠ 15#4 → t.reg n =
        if list.getLsbD n.toNat then word n else if w ∧ n = rn then blockAfter u (s.reg rn) list else s.reg n) ∧
      t.reg 15#4 = s.reg 15#4 ∧ t.cpu = { s.cpu with r := t.cpu.r, pendingPC := pending } ∧
      KeepsBlock s t ∧ SameBus s1 t ∧ ∀ a : Nat, t.mem.read a = s.mem.read a
    (list.getLsbD 15 = false → goes s.cpu.pendingPC) ∧
    (list.getLsbD 15 = true → match s.loadedTarget (word 15#4) with
      | .ok target => goes (some target)
      | .error why => exec i s = .next (s1.halt why))

/-- R476, R477: LDM of user registers within R472 whose bus reads are answered with the words `ws`, by raw memory or by
delegates (each such call recorded). Each listed register of USR mode gets its word; every other register of every mode, the
flags, memory and everything else stay. Constructor: ldmUser. -/
def Obligations.LoadMultipleUser : Prop :=
  ∀ (c : Cond) (p u w : Bool) (rn : RegNo) (low : BitVec 15) (s s1 : State) (ws : List Word),
    let i : Instr := .ldmUser c p u w rn low
    let list : BitVec 16 := low.setWidth 16
    blockTrap i s = none → s.ReadsAll (wordAddrs (listCount list) (blockLow p u (s.reg rn) list)) ws s1 →
    ∃ t, exec i s = .next t ∧
      (∀ (m : BitVec 5) (n : Fin 15), t.cpu.view m n =
        if list.getLsbD n.val = true ∧ physBank m n.val = .usr then ws.getD (slotOf list n.val) 0#32
        else s.cpu.view m n) ∧
      t.reg 15#4 = s.reg 15#4 ∧
      t.cpu = { s.cpu with
        r := t.cpu.r, banks := { s.cpu.banks with usr := { s.cpu.banks.usr with r := t.cpu.banks.usr.r } } } ∧
      KeepsBlock s t ∧ SameBus s1 t ∧ ∀ a : Nat, t.mem.read a = s.mem.read a

/-- R478, R536, R644, R622, R240: LDM exception return within R472 whose bus reads are answered with the words `ws`, by raw
memory or by delegates (each such call recorded). An SPSR with T = 1 halts with ThumbState (its target, the highest word, by
log 12), one with an invalid mode with InvalidMode, an unaligned highest word with MisalignedPC when MISALIGNED_PC is fault,
before any register is written. Else the registers and the base are those of the old mode; then CPSR becomes the SPSR (within
PSR_MASK), the banks switch, and the highest word, aligned when MISALIGNED_PC is align, is the target of the program counter.
Constructor: ldmReturn. -/
def Obligations.LoadMultipleReturn : Prop :=
  ∀ (c : Cond) (p u w : Bool) (rn : RegNo) (low : BitVec 15) (s s1 : State) (ws : List Word),
    let i : Instr := .ldmReturn c p u w rn low
    let list : BitVec 16 := low.setWidth 16 ||| 0x8000#16
    blockTrap i s = none → s.ReadsAll (wordAddrs (listCount list) (blockLow p u (s.reg rn) list)) ws s1 →
    let word (n : Nat) : Word := ws.getD (slotOf list n) 0#32
    match s.returnTarget s.cpu.spsr (word 15) with
    | .ok target => ∃ t, exec i s = .next t ∧ t.cpu.pendingPC = some target ∧
      t.cpu.cpsr = s.returnCpsr s.cpu.spsr ∧
      (∀ (m : BitVec 5) (n : Fin 15), t.cpu.view m n =
        if physBank m n.val = physBank s.mode n.val then
          if list.getLsbD n.val then word n.val
          else if w ∧ n.val = rn.toNat then blockAfter u (s.reg rn) list else s.cpu.view m n
        else s.cpu.view m n) ∧
      (∀ m : BitVec 5, t.cpu.spsrView m = s.cpu.spsrView m) ∧ t.reg 15#4 = s.reg 15#4 ∧
      t.cpu = { s.cpu with
        r := t.cpu.r, cpsr := t.cpu.cpsr, spsr := t.cpu.spsr, banks := t.cpu.banks, pendingPC := t.cpu.pendingPC } ∧
      KeepsBlock s t ∧ SameBus s1 t ∧ ∀ a : Nat, t.mem.read a = s.mem.read a
    | .error why => exec i s = .next (s1.halt why)

/-- R471, R474 to R476, R479, R480: STM and STM of user registers within R472. To raw memory word `k` of the block gets the
k-th listed register (of USR mode for the user form), all read before any write, unless a later word of the block lies over
it; every byte outside the block reads as before. To any accessors that answer, delegates included, one bus write for each
listed register is made, from the lowest address up, each call to a delegate recorded. The base is written back with W = 1
(never in the user form); nothing else changes. Constructors: stm, stmUser. -/
def Obligations.StoreMultiple : Prop :=
  ∀ (c : Cond) (p u w user : Bool) (rn : RegNo) (list : BitVec 16) (s : State),
    let i : Instr := if user then .stmUser c p u w rn list else .stm c p u w rn list
    let low := blockLow p u (s.reg rn) list
    let source (n : RegNo) : Word :=
      if h : user = true ∧ n.toNat < 15 then s.cpu.view Mode.usr.bits ⟨n.toNat, h.2⟩ else s.reg n
    let rest (t : State) : Prop := (w = true → t.reg rn = blockAfter u (s.reg rn) list) ∧
      KeepsCpu (if w then [rn] else []) 0#32 s t ∧ KeepsBlock s t ∧ t.cpu.pendingPC = s.cpu.pendingPC
    blockTrap i s = none →
    (∀ place : Nat → Nat, s.mem.wf = true → s.blockAt low list place →
      ∃ t, exec i s = .next t ∧ rest t ∧ t.mem.wf = true ∧
        (∀ n : RegNo, list.getLsbD n.toNat = true →
          (∀ k < listCount list, slotOf list n.toNat < k →
            place k + 4 ≤ place (slotOf list n.toNat) ∨ place (slotOf list n.toNat) + 4 ≤ place k) →
          t.mem.readWord (place (slotOf list n.toNat)) = source n) ∧
        (∀ a : Nat, (∀ k < listCount list, a < place k ∨ place k + 4 ≤ a) → t.mem.read a = s.mem.read a) ∧
        t.events = s.events ∧ t.draws = s.draws) ∧
    (∀ (vs : List Word) (s1 : State),
      (∀ n : RegNo, list.getLsbD n.toNat = true → vs[slotOf list n.toNat]? = some (source n)) →
      s.WritesAll (wordAddrs (listCount list) low) vs s1 → ∃ t, exec i s = .next t ∧ rest t ∧ SameBus s1 t)

/-- R404, R423, R440, R472: a single load or store, or a block transfer, that breaks a restriction halts with the first
reason of its table, and nothing else of the block changes. Constructors: the thirty-six of lsForm, ldm, ldmUser, ldmReturn,
stm, stmUser. -/
def Obligations.TransferRestrictions : Prop :=
  ∀ (i : Instr) (s : State) (why : UnpredictableReason),
    (∀ f, lsForm i = some f → f.trap s = some why → exec i s = .next (s.halt (.unpredictable why))) ∧
    (blockTrap i s = some why → exec i s = .next (s.halt (.unpredictable why)))

/-- R474, R107, R15: a block transfer within R472 whose access `k` reaches the invalid accessor, while those before it are
answered, by raw memory or by delegates, halts with BusFault. A load has made the reads before it, a store the writes of the
registers before it, in order; there is no other bus call, and no register is written. Constructors: ldm, ldmUser,
ldmReturn, stm, stmUser. -/
def Obligations.BlockBusFault : Prop :=
  ∀ (c : Cond) (p u w : Bool) (rn : RegNo) (list : BitVec 16) (low : BitVec 15) (s s1 : State) (vs : List Word)
    (k : Nat) (x : Word),
    let start (l : BitVec 16) : Word := blockLow p u (s.reg rn) l
    let halts (i : Instr) : Prop := exec i s = .next (s1.halt (.busFault x))
    let load (i : Instr) (l : BitVec 16) : Prop :=
      blockTrap i s = none → k < listCount l → s.ReadsAll (wordAddrs k (start l)) vs s1 →
      s.ReadFaults (alignDown (slotAddr (start l) k)) x → halts i
    let store (i : Instr) (source : RegNo → Word) : Prop :=
      blockTrap i s = none → k < listCount list →
      (∀ n : RegNo, list.getLsbD n.toNat = true → slotOf list n.toNat < k →
        vs[slotOf list n.toNat]? = some (source n)) →
      s.WritesAll (wordAddrs k (start list)) vs s1 →
      s.WriteFaults (alignDown (slotAddr (start list) k)) x → halts i
    load (.ldm c p u w rn list) list ∧ load (.ldmUser c p u w rn low) (low.setWidth 16) ∧
    load (.ldmReturn c p u w rn low) (low.setWidth 16 ||| 0x8000#16) ∧ store (.stm c p u w rn list) s.reg ∧
    store (.stmUser c p u w rn list) fun n =>
      if h : n.toNat < 15 then s.cpu.view Mode.usr.bits ⟨n.toNat, h⟩ else s.reg n
/-- R500, R501: B and BL with an aligned PC + 8 in r15. The target is PC + 8 plus four times the signed offset, modulo
2^32; BL writes PC + 4 to r14; no flag and nothing else changes. Constructors: b, bl. -/
def Obligations.BranchAndLink : Prop :=
  ∀ (c : Cond) (imm : BitVec 24) (s : State), (s.reg 15#4).toNat % 4 = 0 →
    let target := s.reg 15#4 + BitVec.ofInt 32 (4 * imm.toInt)
    let goes (i : Instr) (ds : List RegNo) (link : State → Prop) : Prop := ∃ t, exec i s = .next t ∧
      t.cpu.pendingPC = some target ∧ link t ∧ KeepsCpu ds 0#32 s t ∧ KeepsBlock s t ∧ KeepsBus s t
    goes (.b c imm) [] (fun _ => True) ∧ goes (.bl c imm) [14#4] (fun t => t.reg 14#4 = s.reg 15#4 - 4#32)

/-- R502, R504, R240: BX and BLX (register). An aligned register value is the target; bit 0 set halts with ThumbState;
bits 1:0 = 10 halt with MisalignedPC when MISALIGNED_PC is fault and are cleared when it is align. BLX writes PC + 4 to r14
after its target is read, and halts with BLXPC for r15; a halt changes no register. Constructors: bx, blxReg. -/
def Obligations.BranchExchange : Prop :=
  ∀ (c : Cond) (rm : RegNo) (s : State),
    let a := s.reg rm
    let goes (i : Instr) (ds : List RegNo) (link : State → Prop) (target : Word) : Prop := ∃ t, exec i s = .next t ∧
      t.cpu.pendingPC = some target ∧ link t ∧ KeepsCpu ds 0#32 s t ∧ KeepsBlock s t ∧ KeepsBus s t
    let exchanges (i : Instr) (ds : List RegNo) (link : State → Prop) : Prop :=
      (a.toNat % 4 = 0 → goes i ds link a) ∧
      (a.toNat % 2 = 1 → exec i s = .next (s.halt (.unsupported (.thumbState a)))) ∧
      (a.toNat % 4 = 2 → match s.params.misalignedPc with
        | .fault => exec i s = .next (s.halt (.unpredictable .misalignedPC))
        | .align => goes i ds link (a - 2#32))
    exchanges (.bx c rm) [] (fun _ => True) ∧
    (rm ≠ 15#4 → exchanges (.blxReg c rm) [14#4] fun t => t.reg 14#4 = s.reg 15#4 - 4#32) ∧
    (rm = 15#4 → exec (.blxReg c rm) s = .next (s.halt (.unpredictable .blxPC)))

/-- R530: MRS. Rd gets CPSR, or the SPSR in a mode that has one; nothing else changes. r15 as Rd halts with
PCDestination; the SPSR form halts with NoSPSR in a mode without one. Constructor: mrs. -/
def Obligations.ReadStatus : Prop :=
  ∀ (c : Cond) (rd : RegNo) (s : State),
    (rd = 15#4 → ∀ r, exec (.mrs c r rd) s = .next (s.halt (.unpredictable .pcDestination))) ∧
    (rd ≠ 15#4 → ∃ t, exec (.mrs c .cpsr rd) s = .next t ∧ t.reg rd = s.cpu.cpsr ∧ Keeps [rd] 0#32 s t) ∧
    (rd ≠ 15#4 → hasSpsr s.mode = true →
      ∃ t, exec (.mrs c .spsr rd) s = .next t ∧ t.reg rd = s.cpu.spsr ∧ Keeps [rd] 0#32 s t) ∧
    (rd ≠ 15#4 → hasSpsr s.mode = false → exec (.mrs c .spsr rd) s = .next (s.halt (.unpredictable .noSPSR)))

/-- R532, R533, R536: MSR to CPSR. Each bit of CPSR becomes that of the operand when the field mask, PSR_MASK and the
privilege (only the flags byte in USR mode) let it, and stays otherwise; the registers and SPSRs of every mode keep their
values through a mode switch. A change of T halts with MSRChangesT; a written mode field that is no mode halts with
InvalidMode; r15 as Rm halts with PCSource. Constructors: msrImm, msrReg. -/
def Obligations.WriteCpsr : Prop :=
  ∀ (c : Cond) (mask : BitVec 4) (o : ImmOp ⊕ RegNo) (s : State) (new : Word),
    (∀ n < 32, new.getLsbD n =
      if mask.getLsbD (n / 8) = true ∧ (privileged s.mode = true ∨ 24 ≤ n) ∧ (psrMask s.variant).getLsbD n = true then
        (msrOperand o s).getLsbD n
      else s.cpu.cpsr.getLsbD n) →
    let i := msrInstr c .cpsr mask o
    let writesMode : Prop := mask.getLsbD 0 = true ∧ privileged s.mode = true
    (o = .inr 15#4 → exec i s = .next (s.halt (.unpredictable .pcSource))) ∧
    (o ≠ .inr 15#4 → flagT new ≠ flagT s.cpu.cpsr → exec i s = .next (s.halt (.unpredictable .msrChangesT))) ∧
    (o ≠ .inr 15#4 → flagT new = flagT s.cpu.cpsr → writesMode → validMode (modeField new) = false →
      exec i s = .next (s.halt (.unpredictable .invalidMode))) ∧
    (o ≠ .inr 15#4 → flagT new = flagT s.cpu.cpsr → (writesMode → validMode (modeField new) = true) →
      ∃ t, exec i s = .next t ∧ t.cpu.cpsr = new ∧ SwitchesBank s t ∧ t.cpu.pendingPC = s.cpu.pendingPC ∧
        KeepsBlock s t ∧ KeepsBus s t)

/-- R532, R533, R537: MSR to SPSR. In a mode with an SPSR each of its bits becomes that of the operand when the field
mask and PSR_MASK let it, T and an invalid mode included; nothing else changes; in another mode it halts with NoSPSR.
Constructors: msrImm, msrReg. -/
def Obligations.WriteSpsr : Prop :=
  ∀ (c : Cond) (mask : BitVec 4) (o : ImmOp ⊕ RegNo) (s : State),
    let i := msrInstr c .spsr mask o
    (o = .inr 15#4 → exec i s = .next (s.halt (.unpredictable .pcSource))) ∧
    (o ≠ .inr 15#4 → hasSpsr s.mode = false → exec i s = .next (s.halt (.unpredictable .noSPSR))) ∧
    (o ≠ .inr 15#4 → hasSpsr s.mode = true →
      ∃ v, exec i s = .next (s.setCpu { s.cpu with spsr := v }) ∧
        ∀ n < 32, v.getLsbD n =
          if mask.getLsbD (n / 8) = true ∧ (psrMask s.variant).getLsbD n = true then (msrOperand o s).getLsbD n
          else s.cpu.spsr.getLsbD n)

/-- R535, R652: the only instructions that change the mode are MSR to CPSR from a privileged mode, the data-processing
and LDM exception returns, and, under EXC_MODEL = architectural, those that enter an exception. In USR mode with EXC_MODEL
= unsupported no instruction leaves USR mode. -/
def Obligations.ModeChanges : Prop :=
  ∀ (i : Instr) (s t : State), exec i s = .next t → t.mode ≠ s.mode →
    (privileged s.mode = true ∧ ∃ c mask o, i = msrInstr c .cpsr mask o) ∨
    (hasSpsr s.mode = true ∧ t.cpu.cpsr = s.returnCpsr s.cpu.spsr ∧
      ((∃ op c rn o, op.testsOnly = false ∧ i = dpInstr op c true rn 15#4 o) ∨
       ∃ c p u w rn low, i = .ldmReturn c p u w rn low)) ∨
    (s.params.excModel = .architectural ∧
      ((undefinedRow i).isSome = true ∨ (∃ c imm, i = .swi c imm) ∨ ∃ hi lo, i = .bkpt .al hi lo))

/-- R560 to R565: CLZ, QADD, QSUB, QDADD, QDSUB. CLZ: Rd gets the number of leading zero bits of Rm, 32 for 0. The others:
Rd gets the exact sum or difference of Rm and Rn (doubled and saturated first in the QD forms) held within the signed 32-bit
range, and Q is set on `v5` when a saturation happens and is never cleared. Nothing else changes; r15 halts with PCOperand.
Constructors: clz, qadd, qsub, qdadd, qdsub. -/
def Obligations.ClzAndSaturating : Prop :=
  ∀ (op : SatOp) (c : Cond) (rn rd rm : RegNo) (s : State),
    let i := satInstr op c rn rd rm
    let m := (s.reg rm).toInt
    let n := (s.reg rn).toInt
    (rd = 15#4 ∨ rm = 15#4 → exec (.clz c rd rm) s = .next (s.halt (.unpredictable .pcOperand))) ∧
    (rd ≠ 15#4 → rm ≠ 15#4 → ∃ t, exec (.clz c rd rm) s = .next t ∧ Keeps [rd] 0#32 s t ∧
      (t.reg rd).toNat ≤ 32 ∧ (∀ k < (t.reg rd).toNat, (s.reg rm).getLsbD (31 - k) = false) ∧
      ((t.reg rd).toNat < 32 → (s.reg rm).getLsbD (31 - (t.reg rd).toNat) = true)) ∧
    (rn = 15#4 ∨ rd = 15#4 ∨ rm = 15#4 → exec i s = .next (s.halt (.unpredictable .pcOperand))) ∧
    (rn ≠ 15#4 → rd ≠ 15#4 → rm ≠ 15#4 → ∃ t, exec i s = .next t ∧
      (t.reg rd).toInt = saturated (op.exact m n) ∧
      flagQ t.cpu.cpsr = (flagQ s.cpu.cpsr || (s.variant == .v5 && op.saturates m n)) ∧
      Keeps [rd] 0x08000000#32 s t)

/-- R590, R591, R600, R604, R630: under EXC_MODEL = unsupported SWI, BKPT with the condition AL and every UNDEFINED row
halt with their reason and datum; BKPT with another condition halts with BKPTCondition under both models. Constructors:
swi, bkpt, undefMedia, undefMsrImm, undefMul, undefSwap21, undefSwap20, undefSwap23, undefMisc. -/
def Obligations.ExceptionsRefused : Prop :=
  ∀ (s : State),
    (∀ c hi lo, c ≠ .al → exec (.bkpt c hi lo) s = .next (s.halt (.unpredictable .bkptCondition))) ∧
    (s.params.excModel = .unsupported →
      (∀ c imm, exec (.swi c imm) s = .next (s.halt (.unsupported (.softwareInterrupt imm)))) ∧
      (∀ hi lo, exec (.bkpt .al hi lo) s = .next (s.halt (.unsupported (.breakpoint (hi ++ lo))))) ∧
      ∀ i w, undefinedRow i = some w → exec i s = .next (s.halt (.unsupported (.undefined w))))

/-- R590, R591, R600, R640, R641: under EXC_MODEL = architectural SWI enters SVC mode at offset 0x08, BKPT enters ABT
mode at 0x0C and the UNDEFINED rows enter UND mode at 0x04, each with r14 = PC + 4; the bus is not touched. Constructors:
swi, bkpt, undefMedia, undefMsrImm, undefMul, undefSwap21, undefSwap20, undefSwap23, undefMisc. -/
def Obligations.ExceptionsEntered : Prop :=
  ∀ (s : State), s.params.excModel = .architectural →
    let enters (i : Instr) (m : Mode) (offset : Word) : Prop := ∃ t, exec i s = .next t ∧
      Enters m.bits offset (s.cpu.pc + 4#32) false s t ∧ KeepsBlock s t ∧ KeepsBus s t
    (∀ c imm, enters (.swi c imm) .svc 0x08#32) ∧ (∀ hi lo, enters (.bkpt .al hi lo) .abt 0x0C#32) ∧
    ∀ i w, undefinedRow i = some w → enters i .und 0x04#32

/-- R596: every coprocessor instruction halts with Coprocessor and its number, under both values of EXC_MODEL. R503: BLX
(immediate) always halts with ThumbState and its target. R455: PLD makes no bus access, writes no register and raises
nothing, whatever its address. R602: an NV word of `v4` halts with NVCondition when NV_V4 is fault and has no effect when it
is never. R603: an UNPREDICTABLE unconditional word of `v5` halts with UnconditionalSpace. R456: the two `v4` holes of the
extra load/store space halt with ExtraLoadStoreV4. A halt changes no register, flag, memory byte or base. Constructors:
blxImm, cdp, mcr, mrc, stcV4, ldcV4, stcPre, stcPostUp, stcPostDown, stcPostDownLong, ldcPre, ldcPostUp, ldcPostDown,
ldcPostDownLong, mcrr, mrrc, cdp2, mcr2, mrc2, stc2, ldc2, pldImm, pldReg, nvV4, unpredUncond, unpredLsx10, unpredLsx11. -/
def Obligations.UnsupportedAndUnconditional : Prop :=
  ∀ (i : Instr) (cp : BitVec 4) (h : Bool) (imm : BitVec 24) (w : Word) (u : Bool) (rn : RegNo) (off : BitVec 12)
    (o : ShiftImmOp) (s : State),
    let target := s.reg 15#4 + BitVec.ofInt 32 (4 * imm.toInt + if h then 2 else 0)
    (coprocessorNumber i = some cp → exec i s = .next (s.halt (.unsupported (.coprocessor cp)))) ∧
    exec (.blxImm h imm) s = .next (s.halt (.unsupported (.thumbState target))) ∧
    exec (.pldImm u rn off) s = .next s ∧ exec (.pldReg u rn o) s = .next s ∧
    (s.params.nvV4 = .never → exec (.nvV4 w) s = .next s) ∧
    (s.params.nvV4 = .fault → exec (.nvV4 w) s = .next (s.halt (.unpredictable .nvCondition))) ∧
    exec (.unpredUncond w) s = .next (s.halt (.unpredictable .unconditionalSpace)) ∧
    exec (.unpredLsx10 w) s = .next (s.halt (.unpredictable .extraLoadStoreV4)) ∧
    exec (.unpredLsx11 w) s = .next (s.halt (.unpredictable .extraLoadStoreV4))
/-- R230: a step of the block in which it is the turn of a CPU that takes no interrupt, and whose fetched word decodes to a
well-formed instruction with a passing condition, is `exec` of that instruction, then the tick cost and the advance of the
pipeline (`State.retire`). Tier 1: the statements about `exec` reach a run through this one. -/
def Obligations.StepRunsDecodedInstruction : Prop :=
  ∀ (s s1 : State) (id : CpuId) (word : Word) (i : Instr),
    s.session = none → s.turn = some id → (s.select id).clearPending.interruptDue = none →
    (s.select id).clearPending.fetch = .done word s1 → decode s1.variant word = i →
    i.wellFormed s1.variant = true → conditionPassed word s1.cpu.cpsr = true →
    step s = retireResult (s1.stepCost word) (exec i s1)

/-- R233, R234: when the condition fails the step executes nothing: no register, flag, status word, memory byte or halt
record changes, no bus call is made after the fetch and no free value drawn, whatever the word encodes; the tick cost is
charged and the pipeline advances by 4. -/
def Obligations.FailedConditionSkips : Prop :=
  ∀ (s s1 : State) (id : CpuId) (word : Word),
    s.session = none → s.turn = some id → (s.select id).clearPending.interruptDue = none →
    (s.select id).clearPending.fetch = .done word s1 → conditionPassed word s1.cpu.cpsr = false →
    (s.cpuOf id).halted = none →
    ∃ t, step s = .next t ∧ t.cur = id ∧
      t.cpu = { (s.cpuOf id) with
        pc := (s.cpuOf id).pcNext, pcNext := (s.cpuOf id).pcNext + 4#32, pendingPC := none,
        r := (s.cpuOf id).r.set 15 ((s.cpuOf id).pcNext + 8#32), tick := (s.cpuOf id).tick + s1.stepCost word } ∧
      t.mem = s.mem ∧ SameBus s1 t ∧ t.clock = s.clock ∧ t.params = s.params ∧ t.session = none ∧
      ∀ k, k ≠ id → t.cpuOf k = s.cpuOf k

/-- R232: the condition table, row by row. -/
def Obligations.ConditionTable : Prop :=
  ∀ (w psr : Word),
    let n := psr.getLsbD 31
    let z := psr.getLsbD 30
    let c := psr.getLsbD 29
    let v := psr.getLsbD 28
    conditionPassed w psr = match (w >>> 28).toNat with
      | 0 => z
      | 1 => !z
      | 2 => c
      | 3 => !c
      | 4 => n
      | 5 => !n
      | 6 => v
      | 7 => !v
      | 8 => c && !z
      | 9 => !c || z
      | 10 => n == v
      | 11 => n != v
      | 12 => !z && n == v
      | 13 => z || n != v
      | _ => true

/-- R230, R236, R240, R45, R46, R250: the end of a step. The tick grows by the cost; a CPU that halted keeps PC, PCNext and
r15; else a pending target becomes PC, and without one PCNext does; PCNext and r15 follow by 4 and 8; nothing else changes.
The cost is CLOCK_DIVIDER times the cycles of the word, 1 by default. -/
def Obligations.StepEnds : Prop :=
  ∀ (s : State) (cost : Nat) (word : Word),
    let t := s.retire cost
    (s.cpu.halted ≠ none → t = s.setCpu { s.cpu with tick := s.cpu.tick + cost }) ∧
    (s.cpu.halted = none →
      let a := s.cpu.pendingPC.getD s.cpu.pcNext
      t = s.setCpu { s.cpu with
        pc := a, pcNext := a + 4#32, r := s.cpu.r.set 15 (a + 8#32), pendingPC := none,
        started := s.cpu.pendingPC.isSome || s.cpu.started, tick := s.cpu.tick + cost }) ∧
    s.stepCost word = s.cpu.cfg.clockDivider * insnCycles s.params.insnCycles word ∧ insnCycles [] word = 1

/-- R640, R642, R643: under EXC_MODEL = architectural a step of a CPU whose `fiq` level is up and not masked enters FIQ, else
one whose `irq` level is up and not masked enters IRQ, with r14 = PC + 4; it fetches nothing, costs CLOCK_DIVIDER, and the
vector is the new PC. When each level is down or masked (F, I) no interrupt is taken, nor (R630) under EXC_MODEL =
unsupported: the step fetches. -/
def Obligations.InterruptEntry : Prop :=
  ∀ (s : State) (id : CpuId), s.session = none → s.turn = some id →
    let s0 := (s.select id).clearPending
    let c := s.cpuOf id
    let noFiq : Prop := c.fiq = false ∨ flagF c.cpsr = true
    let noIrq : Prop := c.irq = false ∨ flagI c.cpsr = true
    let takes (m : Mode) (offset : Word) (fiq : Bool) : Prop := ∃ t, step s = .next (t.retire c.cfg.clockDivider) ∧
      Enters m.bits offset (c.pc + 4#32) fiq s0 t ∧ KeepsBlock s0 t ∧ KeepsBus s0 t
    let fetches : Prop := s0.interruptDue = none ∧
      (∀ word s1, s0.fetch = .done word s1 → step s = retireResult (s1.stepCost word) (s1.runWord word))
    (s.params.excModel = .unsupported → fetches) ∧
    (s.params.excModel = .architectural → noFiq → noIrq → fetches) ∧
    (s.params.excModel = .architectural → c.fiq = true → flagF c.cpsr = false → takes .fiq 0x1C#32 true) ∧
    (s.params.excModel = .architectural → noFiq → c.irq = true → flagI c.cpsr = false → takes .irq 0x18#32 false)

/-- R120, R230, R236: a fetch that reaches the invalid accessor halts the CPU with BusFault; the step costs CLOCK_DIVIDER
and changes nothing else of the CPU. -/
def Obligations.FetchFaultHalts : Prop :=
  ∀ (s s1 : State) (id : CpuId) (a : Word), s.session = none → s.turn = some id →
    (s.select id).clearPending.interruptDue = none → (s.select id).clearPending.fetch = .fault a s1 →
    ∃ t, step s = .next t ∧ t.cpuOf id = { s.cpuOf id with
        halted := some { why := .busFault a, pc := (s.cpuOf id).pc }, pendingPC := none,
        tick := (s.cpuOf id).tick + (s.cpuOf id).cfg.clockDivider } ∧
      t.mem = s.mem ∧ t.events = s.events ∧ ∀ k, k ≠ id → t.cpuOf k = s.cpuOf k

/-- R670, R671, R672, R673: the turn of a master in a pass. A CPU steps while it is started, not halted and below the target;
else its turn ends with its tick, raised to the target when it is not started or halted. A master that is not a CPU reaches
a free tick (log 19), never below its own, and, when the target is greater than its tick, a larger one. Then the next
master's turn begins. -/
def Obligations.ClockTurn : Prop :=
  ∀ (s : State) (id : CpuId) (name : Nat) (x goal : Int) (k : Nat) (reached : List Int),
    s.session = none → s.params.schedule = .clock → s.clock.phase = .pass goal k reached →
    let c := s.cpuOf id
    let t := s.clock.targetTick
    (s.clock.masters[k]? = some (.cpu id) →
      (c.started = true → c.halted = none → c.tick < t → step s = ({ s with cur := id } : State).cpuStep) ∧
      (c.started = true → c.halted = none → t ≤ c.tick →
        step s = .next { s with clock := { s.clock with phase := .pass goal (k + 1) (reached ++ [c.tick]) } }) ∧
      (c.started = false ∨ c.halted ≠ none →
        step s = .next { s.putCpu id { c with tick := max c.tick t } with
          clock := { s.clock with phase := .pass goal (k + 1) (reached ++ [max c.tick t]) } })) ∧
    (s.clock.masters[k]? = some (.device name x) → ∃ y : Int, x ≤ y ∧ (x < t → x < y) ∧
      step s = .next { s with
        draws := s.draws + 1
        clock := { s.clock with
          masters := s.clock.masters.set k (.device name y)
          phase := .pass goal (k + 1) (reached ++ [y]) } })

/-- R671, R675, R678: `Clock.execute`, its call and the end of a pass. The driver calls it with TICKS_PER_FRAME: when
`executedTick` is below, the pass over the masters begins with that target; else the slaves execute to `executedTick` and the
call returns. At the end of a pass `executedTick` is the least tick returned; when some master returned less than the
target, the pass runs again with that tick as the target; else, when the goal is not reached, again with the goal; else
every slave executes to that tick and the call returns. With no master the goal counts as reached (D21). One turn of these
loops is one step (log 9). -/
def Obligations.ClockCallAndEndOfPass : Prop :=
  ∀ (s : State) (goal : Int) (k : Nat) (reached : List Int), s.session = none → s.params.schedule = .clock →
    (s.clock.phase = .idle → s.clock.executedTick < s.params.ticksPerFrame →
      step s = .next { s with clock := { s.clock with
        targetTick := s.params.ticksPerFrame, phase := .pass s.params.ticksPerFrame 0 [] } }) ∧
    (s.clock.phase = .idle → (s.params.ticksPerFrame : Int) ≤ s.clock.executedTick →
      step s = .next { s with clock := { s.clock with
        slaves := s.clock.slaves.map fun x => { x with tick := s.clock.executedTick }
        phase := .returned s.params.ticksPerFrame } }) ∧
    (s.clock.phase = .pass goal k reached → s.clock.masters[k]? = none →
      ∃ t, step s = .next t ∧ t = { s with clock := t.clock } ∧ t.clock.masters = s.clock.masters ∧
        (reached = [] → t.clock.executedTick = goal) ∧
        (reached ≠ [] → t.clock.executedTick ∈ reached ∧ ∀ x ∈ reached, t.clock.executedTick ≤ x) ∧
        ((∃ x ∈ reached, x < s.clock.targetTick) → t.clock.targetTick = t.clock.executedTick ∧
          t.clock.phase = .pass goal 0 [] ∧ t.clock.slaves = s.clock.slaves) ∧
        ((∀ x ∈ reached, s.clock.targetTick ≤ x) → t.clock.executedTick < goal → t.clock.targetTick = goal ∧
          t.clock.phase = .pass goal 0 [] ∧ t.clock.slaves = s.clock.slaves) ∧
        ((∀ x ∈ reached, s.clock.targetTick ≤ x) → goal ≤ t.clock.executedTick →
          t.clock.phase = .returned goal ∧ t.clock.targetTick = s.clock.targetTick ∧
          t.clock.slaves = s.clock.slaves.map fun x => { x with tick := t.clock.executedTick }))

/-- R676, R678: after a call the driver advances the Clock by the frame (a step of its own, log 9): the tick of every
registered CPU, device and slave and both ticks of the Clock fall by it; an unregistered CPU keeps its tick; nothing else
changes but the phase. (A CPU registered twice is the model's choice, log 30, and not covered.) -/
def Obligations.ClockAdvance : Prop :=
  ∀ (s : State) (goal : Int), s.session = none → s.params.schedule = .clock → s.clock.phase = .returned goal →
    (s.clock.masters.filter fun m => m = .cpu .arm7).length ≤ 1 →
    (s.clock.masters.filter fun m => m = .cpu .arm9).length ≤ 1 →
    let tick (id : CpuId) : Int :=
      if Master.cpu id ∈ s.clock.masters then (s.cpuOf id).tick - goal else (s.cpuOf id).tick
    step s = .next { s with
      arm7 := { s.arm7 with tick := tick .arm7 }
      arm9 := { s.arm9 with tick := tick .arm9 }
      clock :=
        { executedTick := s.clock.executedTick - goal
          targetTick := s.clock.targetTick - goal
          masters := s.clock.masters.map fun
            | .cpu id => .cpu id
            | .device name x => .device name (x - goal)
          slaves := s.clock.slaves.map fun x => { x with tick := x.tick - goal }
          phase := .idle } }

/-- R130, R236: under SCHEDULE = any the CPU that steps next is any CPU that is started and not halted; when both are, a
free value chooses, a new one at each step, so that no order of the two is excluded. Every step is a whole step of that CPU;
when neither can step nothing changes (that the Clock does not move then is the model's choice, log 18). -/
def Obligations.AnySchedule : Prop :=
  ∀ (s : State), s.session = none → s.params.schedule = .any →
    let ready (id : CpuId) : Prop := (s.cpuOf id).started = true ∧ (s.cpuOf id).halted = none
    (ready .arm9 → ready .arm7 → s.turn = some (if scheduleChoice s.draws then .arm9 else .arm7)) ∧
    (ready .arm9 → ¬ready .arm7 → s.turn = some .arm9) ∧ (¬ready .arm9 → ready .arm7 → s.turn = some .arm7) ∧
    (∀ id, s.turn = some id → ready id ∧ step s = ({ s with cur := id, draws := s.draws + 1 } : State).cpuStep) ∧
    (¬ready .arm9 → ¬ready .arm7 → step s = .next s)
/-- R64, R700, R701: `reset()` of a CPU, from any state. Every register, bank slot and SPSR is 0, CPSR (and the shadow
U.cpsr) is RESET_CPSR within PSR_MASK, PC and PCNext are 0, it is not started and not halted; its configuration, bus, tick
and interrupt levels stay, and so does everything outside it; a second reset changes nothing. -/
def Obligations.ResetOfACpu : Prop :=
  ∀ (id : CpuId) (s : State),
    let c := s.cpuOf id
    let t := s.resetCpu id
    let psr := s.params.resetCpsr &&& psrMask c.cfg.variant
    t.cpuOf id = { c with
      r := Vector.replicate 16 0#32, cpsr := psr, spsr := 0#32, pc := 0#32, pcNext := 0#32, pendingPC := none,
      started := false, halted := none
      banks :=
        { usr := { r := Vector.replicate 15 0#32, cpsr := psr }, fiq := { r := Vector.replicate 7 0#32, spsr := 0#32 },
          irq := { r13 := 0#32, r14 := 0#32, spsr := 0#32 }, svc := { r13 := 0#32, r14 := 0#32, spsr := 0#32 },
          abt := { r13 := 0#32, r14 := 0#32, spsr := 0#32 }, und := { r13 := 0#32, r14 := 0#32, spsr := 0#32 } } } ∧
    t = s.putCpu id (t.cpuOf id) ∧ t.resetCpu id = t

/-- R40, R38: `import(M)` after `export(M)` restores the exact registers, for every mode value M; and a switch from the
current mode to any mode and status word keeps the value of every register and SPSR of every mode (R39). -/
def Obligations.BankRoundTrip : Prop :=
  (∀ (m : BitVec 5) (c : Cpu), ((c.saveBank m).loadBank m).r = c.r ∧ ((c.saveBank m).loadBank m).spsr = c.spsr) ∧
  ∀ (new : Word) (c : Cpu), (c.switchTo new).cpsr = new ∧ (c.switchTo new).r[15] = c.r[15] ∧
    (∀ (m : BitVec 5) (i : Fin 15), (c.switchTo new).view m i = c.view m i) ∧
    ∀ m : BitVec 5, (c.switchTo new).spsrView m = c.spsrView m

/-- R46, R47, R620, R236: `setPC(a)` gives PC = a, PCNext = a + 4, r15 = a + 8, and starts the CPU, and changes nothing
else; while the session lasts, a `Step()` of a CPU that is not started, or that is halted, changes nothing and says so. -/
def Obligations.SetPcAndIdleSteps : Prop :=
  ∀ (id : CpuId) (a : Word) (s : State),
    let c := s.cpuOf id
    s.hostSetPC id a = s.putCpu id
      { c with pc := a, pcNext := a + 4#32, r := c.r.set 15 (a + 8#32), started := true } ∧
    (s.session = none → c.started = false → s.hostStep id = some (.notStarted, s)) ∧
    (s.session = none → c.started = true → c.halted ≠ none → s.hostStep id = some (.halted, s))

/-- R105 to R108: a bus access by the item its address resolves to. The invalid sentinel faults, a raw buffer is read or
written at its place, a delegate answers a free value and its call is recorded; an address beyond the bus faults with
HIGH_ADDR fault and is reduced modulo the address space with wrap. -/
def Obligations.BusAccess : Prop :=
  ∀ (s : State) (a v : Word),
    (∀ x, s.cpu.bus.resolve s.params.highAddr s.cpu.bus.readPages a = .invalid x → s.busRead32 a = .fault x s) ∧
    (∀ p, s.cpu.bus.resolve s.params.highAddr s.cpu.bus.readPages a = .raw p →
      s.busRead32 a = .done (s.mem.readWord p) s) ∧
    (∀ d x, s.cpu.bus.resolve s.params.highAddr s.cpu.bus.readPages a = .delegate d x →
      let w := delegateAnswer d s.draws x
      s.busRead32 a = .done w { s with draws := s.draws + 1, events := .read s.cur d x w :: s.events }) ∧
    (∀ x, s.cpu.bus.resolve s.params.highAddr s.cpu.bus.writePages a = .invalid x → s.busWrite32 a v = .fault x s) ∧
    (∀ p, s.cpu.bus.resolve s.params.highAddr s.cpu.bus.writePages a = .raw p →
      s.busWrite32 a v = .done () { s with mem := s.mem.writeWord p v }) ∧
    (∀ d x, s.cpu.bus.resolve s.params.highAddr s.cpu.bus.writePages a = .delegate d x →
      s.busWrite32 a v = .done () { s with events := .write s.cur d x v :: s.events }) ∧
    (2 ^ s.cpu.bus.addressBits ≤ a.toNat → ∀ pages,
      s.cpu.bus.resolve s.params.highAddr pages a = match s.params.highAddr with
        | .fault => .invalid a
        | .wrap => s.cpu.bus.resolve s.params.highAddr pages (BitVec.ofNat 32 (a.toNat % 2 ^ s.cpu.bus.addressBits)))

/-- R101 to R107: `create` fails for an impossible geometry and else gives pages that are partitions, every address leading to
the invalid sentinel. `addRange` with a base or size that is no multiple of 16 fails; else every address of the range leads
to the accessor on the sides installed (a raw buffer with its byte 0 at the base), every other address leads where it led, and
the pages stay sorted partitions when they were. That a range beyond the address space is clipped, and that size 0 changes
nothing, is the model's choice (DESIGN CHOICE, log 16). -/
def Obligations.AddRange : Prop :=
  ∀ (b : Bus) (side : Side) (base size bits page : Nat) (acc : Accessor),
    (¬(bits ≤ 32 ∧ 1 ≤ page ∧ page ≤ bits) → Bus.create bits page = none) ∧
    (bits ≤ 32 → 1 ≤ page → page ≤ bits → ∃ e, Bus.create bits page = some e ∧ e.addressBits = bits ∧
      e.pageBits = page ∧ (∀ n : Nat, e.pageOk e.readPages n = true ∧ e.pageOk e.writePages n = true) ∧
      ∀ (hi : HighAddr) (a : Word), a.toNat < 2 ^ bits →
        e.resolve hi e.readPages a = .invalid a ∧ e.resolve hi e.writePages a = .invalid a) ∧
    (¬(base % 16 = 0 ∧ size % 16 = 0) → b.addRange side base size acc = none) ∧
    (base % 16 = 0 → size % 16 = 0 → ∃ b', b.addRange side base size acc = some b' ∧
      b'.addressBits = b.addressBits ∧ b'.pageBits = b.pageBits ∧
      (∀ (hi : HighAddr) (a : Word), a.toNat < 2 ^ b.addressBits →
        let here (covered : Bool) (old : Target) : Target :=
          if covered = true ∧ base ≤ a.toNat ∧ a.toNat < base + size then
            match acc with
            | .invalid => .invalid a
            | .raw buf => .raw (buf + (a.toNat - base))
            | .delegate d => .delegate d a
          else old
        b'.resolve hi b'.readPages a = here (side != .write) (b.resolve hi b.readPages a) ∧
        b'.resolve hi b'.writePages a = here (side != .read) (b.resolve hi b.writePages a)) ∧
      ∀ n : Nat, (b.pageOk b.readPages n = true → b'.pageOk b'.readPages n = true) ∧
        (b.pageOk b.writePages n = true → b'.pageOk b'.writePages n = true))
/-- R238, R190, R351, R411, R450, R455, R473, R501, R504, R530, R532, R560, R590, R591, R596, R600, R602: words that the
spec writes out decode, on the variant named, to the instruction it says they are. A sanity statement. -/
def Obligations.DecodeSpecWords : Prop :=
  decode .v4 0xE3A00005#32 = .movImm .al false 0#4 0#4 ⟨0#4, 5#8⟩ ∧
  decode .v5 0xE2800003#32 = .addImm .al false 0#4 0#4 ⟨0#4, 3#8⟩ ∧
  decode .v4 0xE0110002#32 = .andImmShift .al true 1#4 0#4 ⟨0#5, .lsl, 2#4⟩ ∧
  decode .v5 0xE8B0000E#32 = .ldm .al false true true 0#4 0x000E#16 ∧
  decode .v4 0xE92D4010#32 = .stm .al true false true 13#4 0x4010#16 ∧
  decode .v4 0xE8FD8001#32 = .ldmReturn .al false true true 13#4 1#15 ∧
  decode .v5 0xE12FFF33#32 = .blxReg .al 3#4 ∧
  decode .v4 0xE12FFF1E#32 = .bx .al 14#4 ∧
  decode .v4 0xEAFFFFFE#32 = .b .al 0xFFFFFE#24 ∧
  decode .v5 0xE10F0000#32 = .mrs .al .cpsr 0#4 ∧
  decode .v4 0xE321F0D3#32 = .msrImm .al .cpsr 1#4 ⟨0#4, 0xD3#8⟩ ∧
  decode .v5 0xE16F0F11#32 = .clz .al 0#4 1#4 ∧
  decode .v4 0xE16F0F11#32 = .undefMisc 0xE16F0F11#32 ∧
  decode .v5 0xE1020051#32 = .qadd .al 2#4 0#4 1#4 ∧
  decode .v4 0xEF123456#32 = .swi .al 0x123456#24 ∧
  decode .v5 0xE1212374#32 = .bkpt .al 0x123#12 4#4 ∧
  decode .v5 0xEE010F10#32 = .mcr .al 0#3 1#4 0#4 15#4 0#3 0#4 ∧
  decode .v4 0xE7F000F0#32 = .undefMedia 0xE7F000F0#32 ∧
  decode .v5 0xF5D1F004#32 = .pldImm true 1#4 4#12 ∧
  decode .v4 0xF5D1F004#32 = .nvV4 0xF5D1F004#32 ∧
  decode .v5 0xFA000000#32 = .blxImm false 0#24 ∧
  decode .v5 0xF0000000#32 = .unpredUncond 0xF0000000#32

/-- R160, R164, R171: every well-formed data-processing instruction decodes from its encoding, with every operand at every
value, on both variants. -/
def Obligations.RoundTripDataProcessing : Prop :=
  ∀ (v : Variant) (i : Instr), familyOf i = .dataProcessing → i.wellFormed v = true → decode v (encode i) = i

/-- R162, R165, R166, R173 to R176, R181: every well-formed load, store, swap, preload and block transfer decodes from its
encoding. -/
def Obligations.RoundTripTransfers : Prop :=
  ∀ (v : Variant) (i : Instr), familyOf i = .transfer → i.wellFormed v = true → decode v (encode i) = i

/-- R161, R163, R166, R167, R169, R172, R177 to R180, R195, R196: every other well-formed instruction (multiplies, CLZ and
the saturating instructions, branches, status words, SWI, BKPT, coprocessor, the rows that keep their word) decodes from its
encoding. -/
def Obligations.RoundTripOthers : Prop :=
  ∀ (v : Variant) (i : Instr), familyOf i = .other → i.wellFormed v = true → decode v (encode i) = i

/-- R153, R156, R63: the decoder is total and answers only well-formed instructions of the variant: no word of `v4` decodes
to a row of `v5` alone, nor the other way. -/
def Obligations.DecodeIsWellFormed : Prop := ∀ (v : Variant) (w : Word), (decode v w).wellFormed v = true

/-- The invariant of the block (memory canonical; for each CPU the pipeline invariant of R44 and R237 when started, no
leftover target, CPSR.T = 0 (R622), reserved bits of every status word 0 (R51)) holds after every step from every state in
which it holds. -/
def Obligations.InvariantKept : Prop := ∀ s t : State, s.Inv = true → step s = .next t → t.Inv = true

/-- The invariant holds right after reset, and after `reset()` of either CPU in any state in which it holds, when RESET_CPSR
has T = 0. -/
def Obligations.InvariantAtReset : Prop :=
  State.reset.Inv = true ∧
  ∀ (s : State) (id : CpuId), s.Inv = true → flagT s.params.resetCpsr = false → (s.resetCpu id).Inv = true

/-- R620, R136: every instruction answers a next state in every state, and no instruction touches the other CPU, the Clock,
the parameters or the session, nor the configuration, the bus, PC, PCNext, r15, the tick, `started` or the interrupt levels
of its own CPU (the end of the step writes those); a halt is set at most once, with the address of the instruction. -/
def Obligations.InstructionsStayInTheirCpu : Prop :=
  ∀ (i : Instr) (s : State), ∃ t, exec i s = .next t ∧ KeepsBlock s t ∧ t.cpu.cfg = s.cpu.cfg ∧
    t.cpu.bus = s.cpu.bus ∧ t.cpu.pc = s.cpu.pc ∧ t.cpu.pcNext = s.cpu.pcNext ∧ t.reg 15#4 = s.reg 15#4 ∧
    t.cpu.tick = s.cpu.tick ∧ t.cpu.started = s.cpu.started ∧ t.cpu.irq = s.cpu.irq ∧ t.cpu.fiq = s.cpu.fiq ∧
    (t.cpu.halted = s.cpu.halted ∨ ∃ why, t.cpu.halted = some { why := why, pc := s.cpu.pc })

/-- R535, R652: with EXC_MODEL = unsupported a CPU in USR mode is in USR mode after every step, whichever CPU steps. -/
def Obligations.UserModeStays : Prop :=
  ∀ (s t : State) (id : CpuId), s.params.excModel = .unsupported → step s = .next t →
    modeField (s.cpuOf id).cpsr = Mode.usr.bits → modeField (t.cpuOf id).cpsr = Mode.usr.bits

/-- R236, R251, R621, R623, R712: after a failed setup operation no step runs, of the block or by a harness (`Step()`,
`CPU.execute`, `Clock.execute`); otherwise every step answers a next state. A step of
one CPU changes nothing of the other, nor the Clock, the parameters or the session; a step of the Clock changes no memory
byte and of both CPUs only the ticks. A CPU that is halted or not started keeps every field but its tick, and that too in the
steps of the other CPU. -/
def Obligations.StepsAreIndivisible : Prop :=
  ∀ s : State, (∀ why, s.session = some why → step s = .fault (.setupFailed why) ∧
      ∀ (id : CpuId) (t : Int) (fuel : Nat),
        s.hostStep id = none ∧ s.cpuExecute id t fuel = none ∧ s.clockExecute fuel t = none) ∧
    (s.session = none → ∃ t, step s = .next t ∧ t.params = s.params ∧ t.session = none ∧
      (∀ id, (s.cpuOf id).halted ≠ none ∨ (s.cpuOf id).started = false →
        t.cpuOf id = { s.cpuOf id with tick := (t.cpuOf id).tick }) ∧
      match s.turn with
      | some id => t.clock = s.clock ∧ t.cur = id ∧ ∀ k, k ≠ id → t.cpuOf k = s.cpuOf k
      | none => t.mem = s.mem ∧ t.events = s.events ∧
        ∀ id, t.cpuOf id = { s.cpuOf id with tick := (t.cpuOf id).tick })
end

