-- ==== Sys2Proof/Laws/State.lean ====
section
/-! SUPPORT. One lemma per field per update of State and of Cpu, so that no later proof unfolds a record update. -/

namespace Sys2Proof.Machine

open Sys2Proof.Config

/-! ### The stepping CPU -/

/-- What was put in place of the stepping CPU is the stepping CPU. -/
@[simp] theorem State.cpu_setCpu (c : Cpu) (s : State) : (s.setCpu c).cpu = c := by
  obtain ⟨_, _, _, _, _, _, _, cur, _⟩ := s
  cases cur <;> rfl

/-- Putting the stepping CPU back changes nothing. -/
@[simp] theorem State.setCpu_self (s : State) : s.setCpu s.cpu = s := by
  obtain ⟨_, _, _, _, _, _, _, cur, _⟩ := s
  cases cur <;> rfl

/-- The last of two updates of the stepping CPU stands. -/
@[simp] theorem State.setCpu_setCpu (c d : Cpu) (s : State) : (s.setCpu c).setCpu d = s.setCpu d := by
  obtain ⟨_, _, _, _, _, _, _, cur, _⟩ := s
  cases cur <;> rfl

/-- The CPU named by `cur` is the stepping CPU. -/
theorem State.cpuOf_cur (s : State) : s.cpuOf s.cur = s.cpu := rfl

/-- The CPU put in place is read back. -/
@[simp] theorem State.cpuOf_putCpu (id : CpuId) (c : Cpu) (s : State) : (s.putCpu id c).cpuOf id = c := by
  cases id <;> rfl

/-- Putting one CPU leaves the other. -/
theorem State.cpuOf_putCpu_ne {id other : CpuId} (h : other ≠ id) (c : Cpu) (s : State) :
    (s.putCpu id c).cpuOf other = s.cpuOf other := by
  cases id <;> cases other <;> first | rfl | exact absurd rfl h

/-- An update of the stepping CPU leaves the other CPU. -/
theorem State.cpuOf_setCpu_ne {other : CpuId} {s : State} (h : other ≠ s.cur) (c : Cpu) :
    (s.setCpu c).cpuOf other = s.cpuOf other := State.cpuOf_putCpu_ne h c s

/-- `mem` is no part of a CPU. -/
@[simp] theorem State.putCpu_mem (id : CpuId) (c : Cpu) (s : State) : (s.putCpu id c).mem = s.mem := by
  cases id <;> rfl

/-- `mem` is no part of a CPU. -/
@[simp] theorem State.setCpu_mem (c : Cpu) (s : State) : (s.setCpu c).mem = s.mem :=
  State.putCpu_mem s.cur c s

/-- `clock` is no part of a CPU. -/
@[simp] theorem State.putCpu_clock (id : CpuId) (c : Cpu) (s : State) : (s.putCpu id c).clock = s.clock := by
  cases id <;> rfl

/-- `clock` is no part of a CPU. -/
@[simp] theorem State.setCpu_clock (c : Cpu) (s : State) : (s.setCpu c).clock = s.clock :=
  State.putCpu_clock s.cur c s

/-- `params` is no part of a CPU. -/
@[simp] theorem State.putCpu_params (id : CpuId) (c : Cpu) (s : State) : (s.putCpu id c).params = s.params := by
  cases id <;> rfl

/-- `params` is no part of a CPU. -/
@[simp] theorem State.setCpu_params (c : Cpu) (s : State) : (s.setCpu c).params = s.params :=
  State.putCpu_params s.cur c s

/-- `session` is no part of a CPU. -/
@[simp] theorem State.putCpu_session (id : CpuId) (c : Cpu) (s : State) : (s.putCpu id c).session = s.session := by
  cases id <;> rfl

/-- `session` is no part of a CPU. -/
@[simp] theorem State.setCpu_session (c : Cpu) (s : State) : (s.setCpu c).session = s.session :=
  State.putCpu_session s.cur c s

/-- `events` is no part of a CPU. -/
@[simp] theorem State.putCpu_events (id : CpuId) (c : Cpu) (s : State) : (s.putCpu id c).events = s.events := by
  cases id <;> rfl

/-- `events` is no part of a CPU. -/
@[simp] theorem State.setCpu_events (c : Cpu) (s : State) : (s.setCpu c).events = s.events :=
  State.putCpu_events s.cur c s

/-- `cur` is no part of a CPU. -/
@[simp] theorem State.putCpu_cur (id : CpuId) (c : Cpu) (s : State) : (s.putCpu id c).cur = s.cur := by
  cases id <;> rfl

/-- `cur` is no part of a CPU. -/
@[simp] theorem State.setCpu_cur (c : Cpu) (s : State) : (s.setCpu c).cur = s.cur :=
  State.putCpu_cur s.cur c s

/-- `draws` is no part of a CPU. -/
@[simp] theorem State.putCpu_draws (id : CpuId) (c : Cpu) (s : State) : (s.putCpu id c).draws = s.draws := by
  cases id <;> rfl

/-- `draws` is no part of a CPU. -/
@[simp] theorem State.setCpu_draws (c : Cpu) (s : State) : (s.setCpu c).draws = s.draws :=
  State.putCpu_draws s.cur c s

/-! ### Updates that keep both CPUs -/

/-- The stepping CPU does not depend on `mem`. -/
@[simp] theorem State.cpu_set_mem (x : Memory) (s : State) : State.cpu { s with mem := x } = s.cpu := rfl

/-- The stepping CPU does not depend on `clock`. -/
@[simp] theorem State.cpu_set_clock (x : Clock) (s : State) : State.cpu { s with clock := x } = s.cpu := rfl

/-- The stepping CPU does not depend on `params`. -/
@[simp] theorem State.cpu_set_params (x : Params) (s : State) : State.cpu { s with params := x } = s.cpu := rfl

/-- The stepping CPU does not depend on `events`. -/
@[simp] theorem State.cpu_set_events (x : List BusEvent) (s : State) : State.cpu { s with events := x } = s.cpu := rfl

/-- The stepping CPU does not depend on `draws`. -/
@[simp] theorem State.cpu_set_draws (x : Nat) (s : State) : State.cpu { s with draws := x } = s.cpu := rfl

/-- The stepping CPU does not depend on `session`. -/
@[simp] theorem State.cpu_set_session (x : Option SetupFailure) (s : State) : State.cpu { s with session := x } = s.cpu := rfl

/-! ### Registers -/

/-- The register just written is read back. -/
theorem State.reg_setReg {i : RegNo} (h : i ≠ 15#4) (v : Word) (s : State) : (s.setReg i v).reg i = v := by
  unfold State.reg State.setReg
  simp [h]

/-- Another register keeps its value. -/
theorem State.reg_setReg_ne {i j : RegNo} (h : j ≠ i) (v : Word) (s : State) :
    (s.setReg i v).reg j = s.reg j := by
  unfold State.reg State.setReg
  have hn : i.toNat ≠ j.toNat := fun e => h (BitVec.eq_of_toNat_eq e.symm)
  split
  · rfl
  · simp [hn]

/-- r15 is never written by `x[i] <- v` (R241). -/
@[simp] theorem State.reg15_setReg (i : RegNo) (v : Word) (s : State) : (s.setReg i v).reg 15#4 = s.reg 15#4 := by
  by_cases h : i = 15#4
  · unfold State.setReg; simp [h]
  · exact State.reg_setReg_ne (fun e => h e.symm) v s

/-- A register write keeps `cfg`. -/
@[simp] theorem State.setReg_cfg (i : RegNo) (v : Word) (s : State) :
    (s.setReg i v).cpu.cfg = s.cpu.cfg := by
  unfold State.setReg; split <;> simp

/-- A register write keeps `bus`. -/
@[simp] theorem State.setReg_bus (i : RegNo) (v : Word) (s : State) :
    (s.setReg i v).cpu.bus = s.cpu.bus := by
  unfold State.setReg; split <;> simp

/-- A register write keeps `cpsr`. -/
@[simp] theorem State.setReg_cpsr (i : RegNo) (v : Word) (s : State) :
    (s.setReg i v).cpu.cpsr = s.cpu.cpsr := by
  unfold State.setReg; split <;> simp

/-- A register write keeps `spsr`. -/
@[simp] theorem State.setReg_spsr (i : RegNo) (v : Word) (s : State) :
    (s.setReg i v).cpu.spsr = s.cpu.spsr := by
  unfold State.setReg; split <;> simp

/-- A register write keeps `banks`. -/
@[simp] theorem State.setReg_banks (i : RegNo) (v : Word) (s : State) :
    (s.setReg i v).cpu.banks = s.cpu.banks := by
  unfold State.setReg; split <;> simp

/-- A register write keeps `pc`. -/
@[simp] theorem State.setReg_pc (i : RegNo) (v : Word) (s : State) :
    (s.setReg i v).cpu.pc = s.cpu.pc := by
  unfold State.setReg; split <;> simp

/-- A register write keeps `pcNext`. -/
@[simp] theorem State.setReg_pcNext (i : RegNo) (v : Word) (s : State) :
    (s.setReg i v).cpu.pcNext = s.cpu.pcNext := by
  unfold State.setReg; split <;> simp

/-- A register write keeps `pendingPC`. -/
@[simp] theorem State.setReg_pendingPC (i : RegNo) (v : Word) (s : State) :
    (s.setReg i v).cpu.pendingPC = s.cpu.pendingPC := by
  unfold State.setReg; split <;> simp

/-- A register write keeps `tick`. -/
@[simp] theorem State.setReg_tick (i : RegNo) (v : Word) (s : State) :
    (s.setReg i v).cpu.tick = s.cpu.tick := by
  unfold State.setReg; split <;> simp

/-- A register write keeps `started`. -/
@[simp] theorem State.setReg_started (i : RegNo) (v : Word) (s : State) :
    (s.setReg i v).cpu.started = s.cpu.started := by
  unfold State.setReg; split <;> simp

/-- A register write keeps `halted`. -/
@[simp] theorem State.setReg_halted (i : RegNo) (v : Word) (s : State) :
    (s.setReg i v).cpu.halted = s.cpu.halted := by
  unfold State.setReg; split <;> simp

/-- A register write keeps `irq`. -/
@[simp] theorem State.setReg_irq (i : RegNo) (v : Word) (s : State) :
    (s.setReg i v).cpu.irq = s.cpu.irq := by
  unfold State.setReg; split <;> simp

/-- A register write keeps `fiq`. -/
@[simp] theorem State.setReg_fiq (i : RegNo) (v : Word) (s : State) :
    (s.setReg i v).cpu.fiq = s.cpu.fiq := by
  unfold State.setReg; split <;> simp

/-- A register write keeps `mem`. -/
@[simp] theorem State.setReg_mem (i : RegNo) (v : Word) (s : State) : (s.setReg i v).mem = s.mem := by
  unfold State.setReg; split <;> simp

/-- A register write keeps `clock`. -/
@[simp] theorem State.setReg_clock (i : RegNo) (v : Word) (s : State) : (s.setReg i v).clock = s.clock := by
  unfold State.setReg; split <;> simp

/-- A register write keeps `params`. -/
@[simp] theorem State.setReg_params (i : RegNo) (v : Word) (s : State) : (s.setReg i v).params = s.params := by
  unfold State.setReg; split <;> simp

/-- A register write keeps `session`. -/
@[simp] theorem State.setReg_session (i : RegNo) (v : Word) (s : State) : (s.setReg i v).session = s.session := by
  unfold State.setReg; split <;> simp

/-- A register write keeps `events`. -/
@[simp] theorem State.setReg_events (i : RegNo) (v : Word) (s : State) : (s.setReg i v).events = s.events := by
  unfold State.setReg; split <;> simp

/-- A register write keeps `cur`. -/
@[simp] theorem State.setReg_cur (i : RegNo) (v : Word) (s : State) : (s.setReg i v).cur = s.cur := by
  unfold State.setReg; split <;> simp

/-- A register write keeps `draws`. -/
@[simp] theorem State.setReg_draws (i : RegNo) (v : Word) (s : State) : (s.setReg i v).draws = s.draws := by
  unfold State.setReg; split <;> simp

/-- A register write leaves the other CPU. -/
theorem State.cpuOf_setReg_ne {other : CpuId} {s : State} (h : other ≠ s.cur) (i : RegNo) (v : Word) :
    (s.setReg i v).cpuOf other = s.cpuOf other := by
  unfold State.setReg; split
  · rfl
  · exact State.cpuOf_setCpu_ne h _

/-! ### Flags, the pending target and the halt record -/

/-- The registers do not depend on the status word of the stepping CPU. -/
@[simp] theorem State.reg_setNZCV (n z c v : Bool) (i : RegNo) (s : State) :
    (s.setNZCV n z c v).reg i = s.reg i := by
  unfold State.setNZCV State.reg; simp

/-- The registers do not depend on the flags of a result. -/
@[simp] theorem State.reg_setResultFlags (r : Word) (c v : Bool) (i : RegNo) (s : State) :
    (s.setResultFlags r c v).reg i = s.reg i := by
  unfold State.setResultFlags State.reg; simp

/-- The registers do not depend on Q. -/
@[simp] theorem State.reg_stickQ (q : Bool) (i : RegNo) (s : State) : (s.stickQ q).reg i = s.reg i := by
  unfold State.stickQ State.reg; split <;> simp

/-- The registers do not depend on the pending target. -/
@[simp] theorem State.reg_setPendingPC (t : Word) (i : RegNo) (s : State) : (s.setPendingPC t).reg i = s.reg i := by
  unfold State.setPendingPC State.reg; simp

/-- The registers do not depend on the halt record. -/
@[simp] theorem State.reg_halt (why : StopReason) (i : RegNo) (s : State) : (s.halt why).reg i = s.reg i := by
  unfold State.halt State.reg; simp

/-- The halt record of a raise names the reason and the address of the instruction (R604, R620). -/
@[simp] theorem State.halted_halt (why : StopReason) (s : State) :
    (s.halt why).cpu.halted = some { why := why, pc := s.cpu.pc } := by
  unfold State.halt; simp

/-- A raise keeps the CPSR (R15). -/
@[simp] theorem State.cpsr_halt (why : StopReason) (s : State) : (s.halt why).cpu.cpsr = s.cpu.cpsr := by
  unfold State.halt; simp

/-- A raise keeps memory (R15). -/
@[simp] theorem State.mem_halt (why : StopReason) (s : State) : (s.halt why).mem = s.mem := by
  unfold State.halt; simp

/-- The pending target just set. -/
@[simp] theorem State.pendingPC_setPendingPC (t : Word) (s : State) :
    (s.setPendingPC t).cpu.pendingPC = some t := by
  unfold State.setPendingPC; simp

/-! ### Devices among the masters, and the end of the session -/

/-- A device never falls behind its own tick (R673, log 19). -/
theorem le_deviceTick (name draw : Nat) (tick t : Int) : tick ≤ deviceTick name draw tick t := by
  unfold deviceTick; split <;> omega

/-- A device that is asked for more than its tick passes its tick (R673, log 19). -/
theorem lt_deviceTick (name draw : Nat) {tick t : Int} (h : tick < t) : tick < deviceTick name draw tick t := by
  unfold deviceTick; rw [if_pos h]; omega

/-- While no setup operation has failed, a harness's operation runs. -/
theorem State.inSession_open {α : Type} {s : State} (h : s.session = none) (x : Option α) : s.inSession x = x := by
  unfold State.inSession; rw [h]

/-- After a failed setup operation none does (R712). -/
theorem State.inSession_ended {α : Type} {s : State} {why : SetupFailure} (h : s.session = some why) (x : Option α) :
    s.inSession x = none := by
  unfold State.inSession; rw [h]

end Sys2Proof.Machine
end

