-- ==== Sys2Proof/Laws/Bus.lean ====
section
/-! SUPPORT. What a bus call and a run of bus calls can do: an access is done exactly when `Reads`, `Writes` and their lists
say so, it faults exactly when `ReadFaults` and `WriteFaults` say so, and it keeps the stepping CPU and the block. -/

namespace Sys2Proof.Machine

open Sys2Proof.Config

/-! ### One call -/

/-- A bus read is done with `w` in `t` exactly when it is answered so. -/
theorem State.busRead32_done {a w : Word} {s t : State} : s.busRead32 a = .done w t ↔ s.Reads a w t := by
  unfold State.busRead32 State.Reads
  cases s.cpu.bus.resolve s.params.highAddr s.cpu.bus.readPages a with
  | invalid x => simp
  | raw p => simp only [Access.done.injEq, eq_comm]
  | delegate dev x =>
    simp only [Access.done.injEq]
    constructor <;> (rintro ⟨rfl, rfl⟩; exact ⟨rfl, rfl⟩)

/-- A bus write is done in `t` exactly when it is made so. -/
theorem State.busWrite32_done {a v : Word} {s t : State} : s.busWrite32 a v = .done () t ↔ s.Writes a v t := by
  unfold State.busWrite32 State.Writes
  cases s.cpu.bus.resolve s.params.highAddr s.cpu.bus.writePages a <;>
    simp only [Access.done.injEq, true_and, eq_comm, reduceCtorEq]

/-- A bus read faults, with no effect, when it reaches the invalid accessor. -/
theorem State.busRead32_fault {a x : Word} {s : State} (h : s.ReadFaults a x) : s.busRead32 a = .fault x s := by
  unfold State.busRead32; rw [h]

/-- A bus write faults, with no effect, when it reaches the invalid accessor. -/
theorem State.busWrite32_fault {a v x : Word} {s : State} (h : s.WriteFaults a x) : s.busWrite32 a v = .fault x s := by
  unfold State.busWrite32; rw [h]

/-- An answered read changes no byte of memory, no CPU and nothing else of the block but the calls and the count. -/
theorem State.Reads.keeps {a w : Word} {s t : State} (h : s.Reads a w t) :
    t = { s with events := t.events, draws := t.draws } := by
  unfold State.Reads at h
  split at h
  · exact h.elim
  · rw [h.2]
  · rw [h.2]

/-- A write that is made changes memory and the calls alone. -/
theorem State.Writes.keeps {a v : Word} {s t : State} (h : s.Writes a v t) :
    t = { s with mem := t.mem, events := t.events } := by
  unfold State.Writes at h
  split at h
  · exact h.elim
  · rw [h]
  · rw [h]

/-- An answered read keeps the stepping CPU. -/
theorem State.Reads.cpu {a w : Word} {s t : State} (h : s.Reads a w t) : t.cpu = s.cpu := by rw [h.keeps]; rfl

/-- A write that is made keeps the stepping CPU. -/
theorem State.Writes.cpu {a v : Word} {s t : State} (h : s.Writes a v t) : t.cpu = s.cpu := by rw [h.keeps]; rfl

/-! ### Runs of calls -/

/-- The word address of an address, in its two spellings. -/
theorem wordAlign_eq_alignDown (a : Word) : wordAlign a = alignDown a := by
  have e : BitVec.ofNat 32 (a.toNat % 4) = a &&& 3#32 := by
    apply BitVec.eq_of_toNat_eq
    rw [BitVec.toNat_and, BitVec.toNat_ofNat, show (3#32 : BitVec 32).toNat = 2 ^ 2 - 1 from rfl,
      Nat.and_two_pow_sub_one_eq_mod]
    omega
  have h : (a &&& 0xFFFFFFFC#32) &&& (a &&& 3#32) = 0#32 := by
    apply BitVec.eq_of_getLsbD_eq; intro i hi; interval_cases i <;> simp
  have d : (a &&& 0xFFFFFFFC#32) + (a &&& 3#32) = a := by
    rw [BitVec.add_eq_or_of_and_eq_zero _ _ h]
    apply BitVec.eq_of_getLsbD_eq; intro i hi; interval_cases i <;> simp
  unfold wordAlign alignDown
  rw [e]
  exact (BitVec.eq_sub_iff_add_eq).2 d

/-- Slot `k + 1` of a block is slot `k` of the block four bytes on. -/
theorem slotAddr_succ (a : Word) (k : Nat) : slotAddr a (k + 1) = slotAddr (a + 4#32) k := by
  apply BitVec.eq_of_toNat_eq
  simp only [slotAddr, BitVec.toNat_add, BitVec.toNat_ofNat]
  omega

/-- The first address, and those of the words after it. -/
theorem wordAddrs_succ (n : Nat) (a : Word) : wordAddrs (n + 1) a = alignDown a :: wordAddrs n (a + 4#32) := by
  simp only [wordAddrs, List.range_succ_eq_map, List.map_cons, List.map_map]
  refine congrArg₂ List.cons (by simp [slotAddr]) (List.map_congr_left fun k _ => ?_)
  simp only [Function.comp, slotAddr_succ]

/-- Answered reads change no byte of memory, no CPU and nothing else of the block but the calls and the count. -/
theorem State.ReadsAll.keeps {as ws : List Word} {s t : State} (h : s.ReadsAll as ws t) :
    t = { s with events := t.events, draws := t.draws } := by
  induction as generalizing ws s with
  | nil => rw [h.2]
  | cons a as ih =>
    obtain ⟨w, rest, s1, -, h1, h2⟩ := h
    rw [ih h2, h1.keeps]

/-- Writes that are made change memory and the calls alone. -/
theorem State.WritesAll.keeps {as vs : List Word} {s t : State} (h : s.WritesAll as vs t) :
    t = { s with mem := t.mem, events := t.events } := by
  induction as generalizing vs s with
  | nil => rw [h.2]
  | cons a as ih =>
    obtain ⟨v, rest, s1, -, h1, h2⟩ := h
    rw [ih h2, h1.keeps]

/-- `n` words are loaded exactly when the reads of their addresses, in order, are answered. -/
theorem State.loadWords_done {n : Nat} {a : Word} {ws : List Word} {s t : State} :
    s.loadWords n a = .done ws t ↔ s.ReadsAll (wordAddrs n a) ws t := by
  induction n generalizing a ws s with
  | zero => simp [State.loadWords, wordAddrs, State.ReadsAll, eq_comm]
  | succ n ih =>
    rw [wordAddrs_succ]
    unfold State.loadWords State.ReadsAll State.memRead32
    rw [wordAlign_eq_alignDown]
    cases h : s.busRead32 (alignDown a) with
    | fault x s1 =>
      simp only [Access.andThen, reduceCtorEq, false_iff, not_exists]
      rintro w rest s1 ⟨-, hr, -⟩
      rw [State.busRead32_done.2 hr] at h
      cases h
    | done v s1 =>
      simp only [Access.andThen]
      cases h2 : s1.loadWords n (a + 4#32) with
      | fault x s2 =>
        simp only [Access.map, reduceCtorEq, false_iff, not_exists]
        rintro w rest s3 ⟨-, hr, hall⟩
        rw [State.busRead32_done.2 hr] at h
        cases h
        rw [ih.2 hall] at h2
        cases h2
      | done vs s2 =>
        simp only [Access.map, Access.done.injEq]
        constructor
        · rintro ⟨rfl, rfl⟩
          exact ⟨v, vs, s1, rfl, State.busRead32_done.1 h, ih.1 h2⟩
        · rintro ⟨w, rest, s3, rfl, hr, hall⟩
          rw [State.busRead32_done.2 hr] at h
          cases h
          rw [ih.2 hall] at h2
          cases h2
          exact ⟨rfl, rfl⟩

/-- Words are stored exactly when the writes to their addresses, in order, are made. -/
theorem State.storeWords_done {vs : List Word} {a : Word} {s t : State} :
    s.storeWords vs a = .done () t ↔ s.WritesAll (wordAddrs vs.length a) vs t := by
  induction vs generalizing a s with
  | nil => simp [State.storeWords, wordAddrs, State.WritesAll, eq_comm]
  | cons v vs ih =>
    rw [List.length_cons, wordAddrs_succ]
    unfold State.storeWords State.WritesAll State.memWrite32
    rw [wordAlign_eq_alignDown]
    cases h : s.busWrite32 (alignDown a) v with
    | fault x s1 =>
      simp only [Access.andThen, reduceCtorEq, false_iff, not_exists]
      rintro w rest s1 ⟨e, hr, -⟩
      cases e
      rw [State.busWrite32_done.2 hr] at h
      cases h
    | done u s1 =>
      simp only [Access.andThen, ih]
      constructor
      · exact fun k => ⟨v, vs, s1, rfl, State.busWrite32_done.1 h, k⟩
      · rintro ⟨w, rest, s3, e, hr, hall⟩
        cases e
        rw [State.busWrite32_done.2 hr] at h
        cases h
        exact hall

end Sys2Proof.Machine
end

