-- ==== Sys2Proof/Laws/Encoding.lean ====
section
/-! SUPPORT. The algebra of bit fields: what is read from a word put together from disjoint fields, and the inverse
pairs of the small field types. -/

namespace Sys2Proof

/-- A field of a union is the union of the fields. -/
theorem bits_or (lo len : Nat) (a b : Word) : bits lo len (a ||| b) = bits lo len a ||| bits lo len b := by
  apply BitVec.eq_of_getLsbD_eq; intro i hi; simp [bits, hi]

/-- A field read where it was put. -/
theorem bits_field_self {n : Nat} (lo : Nat) (h : lo + n ≤ 32) (x : BitVec n) : bits lo n (field lo x) = x := by
  apply BitVec.eq_of_getLsbD_eq; intro i hi
  simp [bits, field, hi, show lo + i < 32 by omega]

/-- Nothing is read below a field. -/
theorem bits_field_below {n : Nat} {lo len at' : Nat} (h : lo + len ≤ at') (x : BitVec n) :
    bits lo len (field at' x) = 0#len := by
  apply BitVec.eq_of_getLsbD_eq; intro i hi
  simp [bits, field, hi, show lo + i < at' by omega]

/-- Nothing is read above a field. -/
theorem bits_field_above {n : Nat} {lo len at' : Nat} (h : at' + n ≤ lo) (x : BitVec n) :
    bits lo len (field at' x) = 0#len := by
  apply BitVec.eq_of_getLsbD_eq; intro i hi
  simp [bits, field, hi, BitVec.getLsbD_of_ge x (lo + i - at') (by omega)]

/-- A bit of a union is the union of the bits. -/
theorem bit_or (n : Nat) (a b : Word) : bit n (a ||| b) = (bit n a || bit n b) := by simp [bit]

/-- A bit of a field, by its place in the field. -/
theorem bit_field {k : Nat} (n at' : Nat) (hn : n < 32) (x : BitVec k) :
    bit n (field at' x) = (decide (at' ≤ n) && x.getLsbD (n - at')) := by
  simp only [bit, field, BitVec.getLsbD_shiftLeft, BitVec.getLsbD_setWidth, hn, decide_true, Bool.true_and]
  by_cases h : at' ≤ n
  · simp [h, show ¬ n < at' by omega, show n - at' < 32 by omega]
  · simp [h, show n < at' by omega]

/-- A field read inside a wider one. -/
theorem bits_field_in {n : Nat} {lo len at' : Nat} (h : at' ≤ lo) (h2 : lo + len ≤ at' + n) (h3 : at' + n ≤ 32)
    (x : BitVec n) : bits lo len (field at' x) = x.extractLsb' (lo - at') len := by
  apply BitVec.eq_of_getLsbD_eq; intro i hi
  simp [bits, field, hi, show ¬ lo + i < at' by omega, show lo + i < 32 by omega,
    show lo + i - at' = lo - at' + i by omega]

/-- A bit of a one-bit field. -/
theorem bit_flag (n at' : Nat) (hn : n < 32) (b : Bool) : bit n (flag at' b) = (decide (at' = n) && b) := by
  unfold flag; rw [bit_field _ _ hn]
  by_cases h : at' ≤ n
  · by_cases h2 : at' = n
    · subst h2; simp
    · have h3 : n - at' ≠ 0 := by omega
      simp [h, h2, h3]
  · simp [h, show at' ≠ n by omega]

/-- A condition is read back from its number. -/
@[simp] theorem Cond.ofBits_bits (c : Cond) : Cond.ofBits c.bits = some c := by cases c <;> rfl

/-- A shift is read back from its number. -/
@[simp] theorem Shift.ofBits_bits (s : Shift) : Shift.ofBits s.bits = s := by cases s <;> rfl

/-- A half is read back from its bit. -/
@[simp] theorem Half.ofBit_bit (h : Half) : Half.ofBit h.bit = h := by cases h <;> rfl

/-- A status register is read back from its bit. -/
@[simp] theorem Psr.ofBit_bit (r : Psr) : Psr.ofBit r.bit = r := by cases r <;> rfl

/-- No condition has the number of the unconditional space (R151). -/
theorem Cond.bits_ne (c : Cond) : c.bits ≠ 15#4 := by cases c <;> decide

/-! ### The condition field of the formats (R151) -/

/-- Bits 31:28 of a union whose other part does not reach them. -/
theorem bits28_or {a b : Word} (h : bits 28 4 b = 0#4) : bits 28 4 (a ||| b) = bits 28 4 a := by
  rw [bits_or, h, BitVec.or_zero]

/-- A field below bit 28 does not reach the condition. -/
theorem bits28_field {n : Nat} {at' : Nat} (h : at' + n ≤ 28) (x : BitVec n) : bits 28 4 (field at' x) = 0#4 :=
  bits_field_above h x

/-- A flag below bit 28 does not reach the condition. -/
theorem bits28_flag {at' : Nat} (h : at' < 28) (b : Bool) : bits 28 4 (flag at' b) = 0#4 := bits28_field h _

/-- A base without a condition and the condition, read back. -/
theorem cond_base {base : Word} (h : bits 28 4 base = 0#4) (c : Cond) :
    Cond.ofBits (bits 28 4 (base ||| field 28 c.bits)) = some c := by
  rw [bits_or, h, BitVec.zero_or, bits_field_self 28 (by omega), Cond.ofBits_bits]

/-- The operand of F1 does not reach the condition. -/
theorem bits28_immOp (o : ImmOp) : bits 28 4 o.encode = 0#4 := by
  simp [ImmOp.encode, bits28_or, bits28_field]

/-- The operand of F2 does not reach the condition. -/
theorem bits28_shiftImmOp (o : ShiftImmOp) : bits 28 4 o.encode = 0#4 := by
  simp [ShiftImmOp.encode, bits28_or, bits28_field]

/-- The operand of F3 does not reach the condition. -/
theorem bits28_shiftRegOp (o : ShiftRegOp) : bits 28 4 o.encode = 0#4 := by
  simp [ShiftRegOp.encode, bits28_or, bits28_field, show bits 28 4 (0x10#32 : Word) = 0#4 by decide]

/-- F1, F2, F3: the condition is read back. -/
theorem cond_dp {base tail : Word} (hb : bits 28 4 base = 0#4) (ht : bits 28 4 tail = 0#4) (c : Cond) (sf : Bool)
    (rn rd : RegNo) :
    Cond.ofBits (bits 28 4 (encodeDp base c sf rn rd tail)) = some c := by
  simp [encodeDp, bits28_or, bits28_field, bits28_flag, cond_base hb, ht]

/-- F4, F5, F6: the condition is read back. -/
theorem cond_regs {base : Word} (hb : bits 28 4 base = 0#4) (c : Cond) (sf : Bool) (r16 r12 r8 r0 : RegNo) :
    Cond.ofBits (bits 28 4 (encodeRegs base c sf r16 r12 r8 r0)) = some c := by
  simp [encodeRegs, bits28_or, bits28_field, bits28_flag, cond_base hb]

/-- F19: the condition is read back. -/
theorem cond_dsp {base : Word} (hb : bits 28 4 base = 0#4) (c : Cond) (r16 r12 r8 : RegNo) (y x : Half) (r0 : RegNo) :
    Cond.ofBits (bits 28 4 (encodeDsp base c r16 r12 r8 y x r0)) = some c := by
  simp [encodeDsp, bits28_or, bits28_field, bits28_flag, cond_base hb]

/-- F7: the condition is read back. -/
theorem cond_lsx {base : Word} (hb : bits 28 4 base = 0#4) (c : Cond) (p u w : Bool) (rn rd : RegNo)
    (hi lo : BitVec 4) :
    Cond.ofBits (bits 28 4 (encodeLsx base c p u w rn rd hi lo)) = some c := by
  simp [encodeLsx, bits28_or, bits28_field, bits28_flag, cond_base hb]

/-- F8, F9: the condition is read back. -/
theorem cond_ls {base tail : Word} (hb : bits 28 4 base = 0#4) (ht : bits 28 4 tail = 0#4) (c : Cond) (u w : Bool)
    (rn rd : RegNo) :
    Cond.ofBits (bits 28 4 (encodeLs base c u w rn rd tail)) = some c := by
  simp [encodeLs, bits28_or, bits28_field, bits28_flag, cond_base hb, ht]

/-- F10: the condition is read back. -/
theorem cond_lsm {base : Word} {n : Nat} (hn : n ≤ 28) (hb : bits 28 4 base = 0#4) (c : Cond) (p u w : Bool)
    (rn : RegNo) (list : BitVec n) :
    Cond.ofBits (bits 28 4 (encodeLsm base c p u w rn list)) = some c := by
  simp [encodeLsm, bits28_or, bits28_field, bits28_flag, cond_base hb, hn]

/-- F22, F23: the condition is that of the base. -/
theorem bits28_cp {n : Nat} {at1 : Nat} (h : at1 + n ≤ 28) (base : Word) (op1 : BitVec n) (crn rd cp : BitVec 4)
    (op2 : BitVec 3) (crm : BitVec 4) :
    bits 28 4 (encodeCp base at1 op1 crn rd cp op2 crm) = bits 28 4 base := by
  simp [encodeCp, bits28_or, bits28_field, h]

/-- F24: the condition is that of the base. -/
theorem bits28_ldc (base : Word) (p u n w : Bool) (rn crd cp : BitVec 4) (off : BitVec 8) :
    bits 28 4 (encodeLdc base p u n w rn crd cp off) = bits 28 4 base := by
  simp [encodeLdc, bits28_or, bits28_field, bits28_flag]

end Sys2Proof
end

