-- ==== Sys2Proof/Laws/Flags.lean ====
section
/-! SUPPORT. What is read from a status word after its flags, its mode or one bit were replaced, and the relation of
AddWithCarry (R301) to the subtractions that R302 states through it. -/

namespace Sys2Proof.Machine

/-! ### The flags of a status word -/

/-- N after the flags were replaced. -/
@[simp] theorem flagN_withNZCV (n z c v : Bool) (w : Word) : flagN (withNZCV n z c v w) = n := by
  simp [flagN, withNZCV, bit_or, bit_flag]; simp [bit]

/-- Z after the flags were replaced. -/
@[simp] theorem flagZ_withNZCV (n z c v : Bool) (w : Word) : flagZ (withNZCV n z c v w) = z := by
  simp [flagZ, withNZCV, bit_or, bit_flag]; simp [bit]

/-- C after the flags were replaced. -/
@[simp] theorem flagC_withNZCV (n z c v : Bool) (w : Word) : flagC (withNZCV n z c v w) = c := by
  simp [flagC, withNZCV, bit_or, bit_flag]; simp [bit]

/-- V after the flags were replaced. -/
@[simp] theorem flagV_withNZCV (n z c v : Bool) (w : Word) : flagV (withNZCV n z c v w) = v := by
  simp [flagV, withNZCV, bit_or, bit_flag]; simp [bit]

/-- A flag does not reach the bits below 28. -/
theorem flag_low (k : Nat) (h : k = 28 ∨ k = 29 ∨ k = 30 ∨ k = 31) (b : Bool) : flag k b &&& 0x0FFFFFFF#32 = 0#32 := by
  rcases h with rfl | rfl | rfl | rfl <;> cases b <;> decide

/-- The bits below the flags are kept. -/
@[simp] theorem withNZCV_low (n z c v : Bool) (w : Word) :
    withNZCV n z c v w &&& 0x0FFFFFFF#32 = w &&& 0x0FFFFFFF#32 := by
  have h : ∀ a b m : Word, (a ||| b) &&& m = a &&& m ||| b &&& m := by
    intro a b m; apply BitVec.eq_of_getLsbD_eq; intro i _; simp [Bool.and_or_distrib_right]
  unfold withNZCV
  rw [h, h, h, h, flag_low 31 (by simp), flag_low 30 (by simp), flag_low 29 (by simp), flag_low 28 (by simp),
    BitVec.and_assoc]
  simp

/-- Replacing the flags by themselves changes nothing. -/
theorem withNZCV_self (w : Word) : withNZCV (flagN w) (flagZ w) (flagC w) (flagV w) w = w := by
  apply BitVec.eq_of_getLsbD_eq; intro i hi
  have key : ∀ j : Nat, j < 32 → (withNZCV (flagN w) (flagZ w) (flagC w) (flagV w) w).getLsbD j = w.getLsbD j := by
    intro j hj
    change bit j _ = bit j _
    simp only [withNZCV, bit_or, bit_flag j _ hj]
    have hand : bit j (w &&& 0x0FFFFFFF#32) = (bit j w && bit j 0x0FFFFFFF#32) := by simp [bit]
    rw [hand]
    interval_cases j <;> simp [flagN, flagZ, flagC, flagV, show ∀ k, bit k 0x0FFFFFFF#32 = (0x0FFFFFFF#32 : Word).getLsbD k from fun _ => rfl]
  exact key i hi

/-! ### One bit -/

/-- The bit just set. -/
@[simp] theorem bit_setBit_self (n : Nat) (hn : n < 32) (b : Bool) (w : Word) : bit n (setBit n b w) = b := by
  cases b <;> simp [setBit, bit, hn]

/-- Another bit. -/
theorem bit_setBit_ne {n k : Nat} (h : k ≠ n) (hk : k < 32) (b : Bool) (w : Word) :
    bit k (setBit n b w) = bit k w := by
  rcases Nat.lt_or_gt_of_ne h with hlt | hgt
  · cases b <;> simp [setBit, bit, hk, hlt]
  · have h0 : k - n ≠ 0 := by omega
    cases b <;> simp [setBit, bit, hk, h0]

/-! ### AddWithCarry (R301, R302) -/

/-- The result is the sum modulo 2^32. -/
theorem addWithCarry_result (a b : Word) (c : Bool) :
    (addWithCarry a b c).result = a + b + (if c then 1#32 else 0#32) := by
  apply BitVec.eq_of_toNat_eq
  cases c <;> simp [addWithCarry, BitVec.toNat_ofNat, BitVec.toNat_add]

/-- The carry is set exactly when the unsigned sum does not fit. -/
theorem addWithCarry_carry (a b : Word) (c : Bool) :
    (addWithCarry a b c).carry = decide (2 ^ 32 ≤ a.toNat + b.toNat + c.toNat) := by
  have ha := a.isLt
  have hb := b.isLt
  rw [Bool.eq_iff_iff]
  cases c <;> simp [addWithCarry, BitVec.toNat_ofNat]

/-- The overflow is set exactly when the signed sum does not fit. -/
theorem addWithCarry_overflow (a b : Word) (c : Bool) :
    (addWithCarry a b c).overflow = outOfRange32 (a.toInt + b.toInt + c.toNat) := by
  have ha := a.isLt
  have hb := b.isLt
  rw [Bool.eq_iff_iff]
  simp only [addWithCarry, outOfRange32, bne_iff_ne, ne_eq, Bool.or_eq_true, decide_eq_true_eq]
  simp only [minInt32, maxInt32, BitVec.toInt_eq_toNat_cond, BitVec.toNat_ofNat]
  cases c <;> simp only [Bool.toNat_true, Bool.toNat_false] <;> split <;> split <;> split <;> omega

/-- The complement as an unsigned number. -/
theorem toNat_complement (b : Word) : (~~~b).toNat = 2 ^ 32 - 1 - b.toNat := by simp [BitVec.toNat_not]

/-- The complement as a signed number. -/
theorem toInt_complement (b : Word) : (~~~b).toInt = -b.toInt - 1 := by
  rw [BitVec.toInt_eq_toNat_cond, toNat_complement, BitVec.toInt_eq_toNat_cond]
  have := b.isLt
  split <;> split <;> omega

/-- A difference through the complement and the carry. -/
theorem add_not_one (a b : Word) : a + ~~~b + 1#32 = a - b := by
  rw [BitVec.sub_eq_add_neg, BitVec.neg_eq_not_add, BitVec.add_assoc]

/-- A difference with a borrow through the complement alone. -/
theorem add_not (a b : Word) : a + ~~~b = a - b - 1#32 :=
  BitVec.eq_sub_iff_add_eq.mpr (add_not_one a b)

end Sys2Proof.Machine
end

