-- ==== Sys2Proof/Laws/Frames.lean ====
section
/-! SUPPORT. The frames of the shared operations: what each register, flag or status update leaves unchanged, how
frames compose, and what a raise and a guarded rule answer. -/

namespace Sys2Proof.Machine

open Sys2Proof.Config

/-! ### Composition -/

/-- Nothing changed. -/
theorem KeepsBlock.refl (s : State) : KeepsBlock s s := ⟨rfl, rfl, rfl, rfl, fun _ _ => rfl⟩

/-- One frame after another. -/
theorem KeepsBlock.trans {s t u : State} (h : KeepsBlock s t) (k : KeepsBlock t u) : KeepsBlock s u :=
  ⟨k.1.trans h.1, k.2.1.trans h.2.1, k.2.2.1.trans h.2.2.1, k.2.2.2.1.trans h.2.2.2.1, fun id hid =>
    (k.2.2.2.2 id (h.1 ▸ hid)).trans (h.2.2.2.2 id hid)⟩

/-- Nothing changed on the bus. -/
theorem KeepsBus.refl (s : State) : KeepsBus s s := ⟨fun _ => rfl, rfl, rfl⟩

/-- One frame after another. -/
theorem KeepsBus.trans {s t u : State} (h : KeepsBus s t) (k : KeepsBus t u) : KeepsBus s u :=
  ⟨fun a => (k.1 a).trans (h.1 a), k.2.1.trans h.2.1, k.2.2.trans h.2.2⟩

/-- Nothing changed in the stepping CPU. -/
theorem KeepsCpu.refl (s : State) : KeepsCpu [] 0#32 s s :=
  ⟨fun _ _ => rfl, rfl, rfl, rfl, rfl, rfl, rfl, rfl, rfl, rfl, rfl, rfl, rfl⟩

/-- A frame with more registers and more bits of CPSR. -/
theorem KeepsCpu.mono {ds ds' : List RegNo} {m m' : Word} {s t : State} (h : KeepsCpu ds m s t)
    (hd : ∀ i, i ∈ ds → i ∈ ds') (hm : m &&& m' = m) : KeepsCpu ds' m' s t := by
  obtain ⟨h1, h2, h3⟩ := h
  refine ⟨fun i hi => h1 i fun k => hi (hd i k), ?_, h3⟩
  have e : ∀ w : Word, w &&& ~~~m' = (w &&& ~~~m) &&& ~~~m' := by
    intro w
    apply BitVec.eq_of_getLsbD_eq
    intro i hi
    have := congrArg (fun x => x.getLsbD i) hm
    simp [hi] at this ⊢
    cases hmi : m[i] <;> simp_all
  rw [e, h2, ← e]

/-- One frame after another. -/
theorem KeepsCpu.trans {ds : List RegNo} {m : Word} {s t u : State} (h : KeepsCpu ds m s t)
    (k : KeepsCpu ds m t u) : KeepsCpu ds m s u := by
  obtain ⟨h1, h2, h3, h4, h5, h6, h7, h8, h9, h10, h11, h12, h13⟩ := h
  obtain ⟨k1, k2, k3, k4, k5, k6, k7, k8, k9, k10, k11, k12, k13⟩ := k
  exact ⟨fun i hi => (k1 i hi).trans (h1 i hi), k2.trans h2, k3.trans h3, k4.trans h4, k5.trans h5, k6.trans h6,
    k7.trans h7, k8.trans h8, k9.trans h9, k10.trans h10, k11.trans h11, k12.trans h12, k13.trans h13⟩

/-- Nothing changed. -/
theorem Keeps.refl (s : State) : Keeps [] 0#32 s s := ⟨KeepsCpu.refl s, KeepsBlock.refl s, KeepsBus.refl s, rfl⟩

/-- A frame with more registers and more bits of CPSR. -/
theorem Keeps.mono {ds ds' : List RegNo} {m m' : Word} {s t : State} (h : Keeps ds m s t)
    (hd : ∀ i, i ∈ ds → i ∈ ds') (hm : m &&& m' = m) : Keeps ds' m' s t :=
  ⟨h.1.mono hd hm, h.2⟩

/-- One frame after another. -/
theorem Keeps.trans {ds : List RegNo} {m : Word} {s t u : State} (h : Keeps ds m s t) (k : Keeps ds m t u) :
    Keeps ds m s u :=
  ⟨h.1.trans k.1, h.2.1.trans k.2.1, h.2.2.1.trans k.2.2.1, k.2.2.2.trans h.2.2.2⟩

/-! ### The updates -/

/-- An update of the stepping CPU keeps the block round it. -/
theorem KeepsBlock.setCpu (c : Cpu) (s : State) : KeepsBlock s (s.setCpu c) :=
  ⟨by simp, by simp, by simp, by simp, fun _ h => State.cpuOf_setCpu_ne h c⟩

/-- An update of the stepping CPU keeps the bus. -/
theorem KeepsBus.setCpu (c : Cpu) (s : State) : KeepsBus s (s.setCpu c) := ⟨by simp, by simp, by simp⟩

/-- A register write changes that register alone. -/
theorem Keeps.setReg (i : RegNo) (v : Word) (s : State) : Keeps [i] 0#32 s (s.setReg i v) := by
  refine ⟨⟨fun j hj => State.reg_setReg_ne (by simpa using hj) v s, ?_⟩, ?_, ?_, by simp⟩
  · simp
  · exact ⟨by simp, by simp, by simp, by simp, fun id h => State.cpuOf_setReg_ne h i v⟩
  · exact ⟨by simp, by simp, by simp⟩

/-- A CPSR write changes only the bits in which the new word differs. -/
theorem Keeps.setCpsr (w m : Word) (s : State) (h : w &&& ~~~m = s.cpu.cpsr &&& ~~~m) :
    Keeps [] m s (s.setCpu { s.cpu with cpsr := w }) := by
  refine ⟨⟨fun i _ => ?_, ?_⟩, KeepsBlock.setCpu _ s, KeepsBus.setCpu _ s, by simp⟩
  · simp [State.reg]
  · simp [h]

/-- The mask of the bits below the flags. -/
theorem not_nzcvMask : ~~~nzcvMask = 0x0FFFFFFF#32 := by decide

/-- A flag update changes only the flags. -/
theorem Keeps.setNZCV (n z c v : Bool) (s : State) : Keeps [] nzcvMask s (s.setNZCV n z c v) :=
  Keeps.setCpsr _ _ s (by rw [not_nzcvMask, withNZCV_low])

/-- The flags of a result change only the flags. -/
theorem Keeps.setResultFlags (r : Word) (c v : Bool) (s : State) :
    Keeps [] nzcvMask s (s.setResultFlags r c v) :=
  Keeps.setCpsr _ _ s (by rw [not_nzcvMask, withResultFlags, withNZCV_low])

/-- The four flags of a result. -/
theorem FlagsAre.setResultFlags (r : Word) (c v : Bool) (s : State) :
    FlagsAre (r.getLsbD 31) (r == 0#32) c v (s.setResultFlags r c v) := by
  unfold FlagsAre State.setResultFlags withResultFlags
  simp only [State.cpu_setCpu, flagN_withNZCV, flagZ_withNZCV, flagC_withNZCV, flagV_withNZCV, bit, and_self]

/-- The four flags just set. -/
theorem FlagsAre.setNZCV (n z c v : Bool) (s : State) : FlagsAre n z c v (s.setNZCV n z c v) := by
  unfold FlagsAre State.setNZCV
  simp only [State.cpu_setCpu, flagN_withNZCV, flagZ_withNZCV, flagC_withNZCV, flagV_withNZCV, and_self]

/-! ### Raises and guarded rules -/

/-- A guarded rule runs when none of its checks applies. -/
theorem State.guarded_pass {checks : List (Bool × UnpredictableReason)} {s : State} {k : Result}
    (h : firstApplying checks = none) : s.guarded checks k = k := by
  unfold State.guarded; rw [h]

/-- A guarded rule raises the first of its checks that applies. -/
theorem State.guarded_raise {checks : List (Bool × UnpredictableReason)} {s : State} {k : Result}
    {r : UnpredictableReason} (h : firstApplying checks = some r) :
    s.guarded checks k = .next (s.halt (.unpredictable r)) := by
  unfold State.guarded; rw [h]; rfl

/-- No check applies exactly when every condition is false. -/
theorem firstApplying_none {checks : List (Bool × UnpredictableReason)} :
    firstApplying checks = none ↔ ∀ p ∈ checks, p.1 = false := by
  induction checks with
  | nil => simp [firstApplying]
  | cons p ps ih =>
    obtain ⟨b, r⟩ := p
    cases b <;> simp [firstApplying, ih]

/-- A raise keeps the block round the stepping CPU, the bus, and every field of the CPU but the halt record and the
pending target (R15, R230). -/
theorem State.halt_keeps (why : StopReason) (s : State) :
    KeepsBlock s (s.halt why) ∧ KeepsBus s (s.halt why) ∧ (∀ i, (s.halt why).reg i = s.reg i) ∧
    (s.halt why).cpu = { s.cpu with halted := some { why := why, pc := s.cpu.pc }, pendingPC := none } := by
  refine ⟨KeepsBlock.setCpu _ s, KeepsBus.setCpu _ s, fun i => by simp, by simp [State.halt]⟩

end Sys2Proof.Machine
end

