-- ==== Sys2Proof/Laws/Memory.lean ====
section
/-! SUPPORT. The byte store: a read after a write, and the canonical form that every write keeps. -/

namespace Sys2Proof.Machine

/-- Canonical above a place is canonical above a lower one. -/
theorem Memory.wfFrom_mono {lo lo' : Nat} (h : lo' ≤ lo) {m : Memory} (hm : m.wfFrom lo = true) :
    m.wfFrom lo' = true := by
  cases m with
  | nil => rfl
  | cons p m =>
    simp only [Memory.wfFrom, Bool.and_eq_true, decide_eq_true_eq] at *
    exact ⟨⟨by omega, hm.1.2⟩, hm.2⟩

/-- A place below a canonical memory is unlisted. -/
theorem Memory.read_below {a lo : Nat} (h : a < lo) {m : Memory} (hm : m.wfFrom lo = true) :
    m.read a = Memory.unlisted := by
  induction m generalizing lo with
  | nil => rfl
  | cons p m ih =>
    obtain ⟨k, b⟩ := p
    simp only [Memory.wfFrom, Bool.and_eq_true, decide_eq_true_eq] at hm
    have : a ≠ k := by omega
    simp only [Memory.read, this, if_false]
    exact ih (lo := k + 1) (by omega) hm.2

/-- The byte just written is read back. -/
theorem Memory.read_write_self (a : Nat) (b : Byte) {m : Memory} {lo : Nat} (hm : m.wfFrom lo = true) :
    (m.write a b).read a = b := by
  induction m generalizing lo with
  | nil => simp only [Memory.write]; split <;> simp_all [Memory.read]
  | cons p m ih =>
    obtain ⟨k, c⟩ := p
    have hw := hm
    simp only [Memory.wfFrom, Bool.and_eq_true, decide_eq_true_eq] at hm
    simp only [Memory.write]
    split
    · split
      · next hlt hb =>
        have : a ≠ k := by omega
        simp only [Memory.read, this, if_false]
        rw [hb, Memory.read_below (lo := k + 1) (by omega) hm.2]
      · simp [Memory.read]
    · split
      · split
        · next hk hb =>
          rw [hb, Memory.read_below (lo := k + 1) (by omega) hm.2]
        · simp [Memory.read]
      · next hk =>
        simp only [Memory.read, hk, if_false]
        exact ih hm.2

/-- Another byte keeps its value. -/
theorem Memory.read_write_ne {a x : Nat} (h : x ≠ a) (b : Byte) (m : Memory) :
    (m.write a b).read x = m.read x := by
  induction m with
  | nil => simp only [Memory.write]; split <;> simp [Memory.read, h]
  | cons p m ih =>
    obtain ⟨k, c⟩ := p
    simp only [Memory.write]
    split
    · split <;> simp [Memory.read, h]
    · split
      · next hk =>
        subst hk
        split <;> simp [Memory.read, h]
      · simp only [Memory.read, ih]

/-- A write keeps the canonical form. -/
theorem Memory.wfFrom_write {a lo : Nat} (h : lo ≤ a) (b : Byte) {m : Memory} (hm : m.wfFrom lo = true) :
    (m.write a b).wfFrom lo = true := by
  induction m generalizing lo with
  | nil =>
    simp only [Memory.write]
    split <;> simp_all [Memory.wfFrom]
  | cons p m ih =>
    obtain ⟨k, c⟩ := p
    simp only [Memory.wfFrom, Bool.and_eq_true, decide_eq_true_eq] at hm
    simp only [Memory.write]
    split
    · split
      · simp_all [Memory.wfFrom]
      · next hlt hb =>
        simp only [Memory.wfFrom, Bool.and_eq_true, decide_eq_true_eq]
        exact ⟨⟨h, by simpa using hb⟩, ⟨⟨by omega, hm.1.2⟩, hm.2⟩⟩
    · split
      · next hk =>
        subst hk
        split
        · exact Memory.wfFrom_mono (by omega) hm.2
        · next hb => simp_all [Memory.wfFrom]
      · next hlt hk =>
        simp only [Memory.wfFrom, Bool.and_eq_true, decide_eq_true_eq]
        exact ⟨hm.1, ih (by omega) hm.2⟩

/-- A byte write keeps the canonical form. -/
theorem Memory.wf_write (a : Nat) (b : Byte) {m : Memory} (hm : m.wf = true) : (m.write a b).wf = true :=
  Memory.wfFrom_write (Nat.zero_le a) b hm

/-- A word write keeps the canonical form. -/
theorem Memory.wf_writeWord (a : Nat) (v : Word) {m : Memory} (hm : m.wf = true) : (m.writeWord a v).wf = true :=
  Memory.wf_write _ _ (Memory.wf_write _ _ (Memory.wf_write _ _ (Memory.wf_write _ _ hm)))

/-- A word write leaves every byte outside its four. -/
theorem Memory.read_writeWord_ne {a x : Nat} (h : x < a ∨ a + 4 ≤ x) (v : Word) (m : Memory) :
    (m.writeWord a v).read x = m.read x := by
  unfold Memory.writeWord
  rw [Memory.read_write_ne (by omega), Memory.read_write_ne (by omega), Memory.read_write_ne (by omega),
    Memory.read_write_ne (by omega)]

/-- Byte `i` of a stored word is bits 8i+7 to 8i of it. -/
theorem Memory.read_writeWord (a : Nat) (v : Word) {m : Memory} (hm : m.wf = true) :
    (m.writeWord a v).read a = bits 0 8 v ∧ (m.writeWord a v).read (a + 1) = bits 8 8 v ∧
      (m.writeWord a v).read (a + 2) = bits 16 8 v ∧ (m.writeWord a v).read (a + 3) = bits 24 8 v := by
  have h1 := Memory.wf_write a (bits 0 8 v) hm
  have h2 := Memory.wf_write (a + 1) (bits 8 8 v) h1
  have h3 := Memory.wf_write (a + 2) (bits 16 8 v) h2
  unfold Memory.writeWord
  refine ⟨?_, ?_, ?_, ?_⟩
  · rw [Memory.read_write_ne (by omega), Memory.read_write_ne (by omega), Memory.read_write_ne (by omega),
      Memory.read_write_self _ _ hm]
  · rw [Memory.read_write_ne (by omega), Memory.read_write_ne (by omega), Memory.read_write_self _ _ h1]
  · rw [Memory.read_write_ne (by omega), Memory.read_write_self _ _ h2]
  · exact Memory.read_write_self _ _ h3

/-- The four bytes of a word, put together again, are the word. -/
theorem wordOfBytes_bits (v : Word) : wordOfBytes (bits 0 8 v) (bits 8 8 v) (bits 16 8 v) (bits 24 8 v) = v := by
  apply BitVec.eq_of_getLsbD_eq
  intro i hi
  simp only [wordOfBytes, bits, field, BitVec.getLsbD_or, BitVec.getLsbD_shiftLeft, BitVec.getLsbD_setWidth,
    BitVec.getLsbD_extractLsb']
  interval_cases i <;> simp

/-- A word read after a word write at the same place gives the word. -/
theorem Memory.readWord_writeWord (a : Nat) (v : Word) {m : Memory} (hm : m.wf = true) :
    (m.writeWord a v).readWord a = v := by
  obtain ⟨h0, h1, h2, h3⟩ := Memory.read_writeWord a v hm
  unfold Memory.readWord
  rw [h0, h1, h2, h3, wordOfBytes_bits]

/-- A word read at a place the write does not touch is unchanged. -/
theorem Memory.readWord_writeWord_ne {a x : Nat} (h : x + 4 ≤ a ∨ a + 4 ≤ x) (v : Word) (m : Memory) :
    (m.writeWord a v).readWord x = m.readWord x := by
  unfold Memory.readWord
  rw [Memory.read_writeWord_ne (by omega), Memory.read_writeWord_ne (by omega),
    Memory.read_writeWord_ne (by omega), Memory.read_writeWord_ne (by omega)]

/-- The memory of the reset state is canonical. -/
theorem State.reset_mem_wf : State.reset.mem.wf = true := rfl

end Sys2Proof.Machine
end

