-- ==== Sys2Proof/Laws/PerInstr.lean ====
section
/-! SUPPORT. The statements made per instruction: the family CondField says that the condition field of the word an
instruction is encoded by is the instruction's condition (R151, R160), one lemma for each constructor. -/

namespace Sys2Proof.Laws

/-- The condition field of the encoding reads back as the instruction's condition. -/
def CondField.Statement (i : Instr) : Prop := Cond.ofBits (bits 28 4 (encode i)) = i.cond

theorem CondField.andImm (c : Cond) (sf : Bool) (rn rd : RegNo) (o : ImmOp) :
    CondField.Statement (.andImm c sf rn rd o) :=
  cond_dp (by decide) (bits28_immOp o) _ _ _ _

theorem CondField.andImmShift (c : Cond) (sf : Bool) (rn rd : RegNo) (o : ShiftImmOp) :
    CondField.Statement (.andImmShift c sf rn rd o) :=
  cond_dp (by decide) (bits28_shiftImmOp o) _ _ _ _

theorem CondField.andRegShift (c : Cond) (sf : Bool) (rn rd : RegNo) (o : ShiftRegOp) :
    CondField.Statement (.andRegShift c sf rn rd o) :=
  cond_dp (by decide) (bits28_shiftRegOp o) _ _ _ _

theorem CondField.eorImm (c : Cond) (sf : Bool) (rn rd : RegNo) (o : ImmOp) :
    CondField.Statement (.eorImm c sf rn rd o) :=
  cond_dp (by decide) (bits28_immOp o) _ _ _ _

theorem CondField.eorImmShift (c : Cond) (sf : Bool) (rn rd : RegNo) (o : ShiftImmOp) :
    CondField.Statement (.eorImmShift c sf rn rd o) :=
  cond_dp (by decide) (bits28_shiftImmOp o) _ _ _ _

theorem CondField.eorRegShift (c : Cond) (sf : Bool) (rn rd : RegNo) (o : ShiftRegOp) :
    CondField.Statement (.eorRegShift c sf rn rd o) :=
  cond_dp (by decide) (bits28_shiftRegOp o) _ _ _ _

theorem CondField.subImm (c : Cond) (sf : Bool) (rn rd : RegNo) (o : ImmOp) :
    CondField.Statement (.subImm c sf rn rd o) :=
  cond_dp (by decide) (bits28_immOp o) _ _ _ _

theorem CondField.subImmShift (c : Cond) (sf : Bool) (rn rd : RegNo) (o : ShiftImmOp) :
    CondField.Statement (.subImmShift c sf rn rd o) :=
  cond_dp (by decide) (bits28_shiftImmOp o) _ _ _ _

theorem CondField.subRegShift (c : Cond) (sf : Bool) (rn rd : RegNo) (o : ShiftRegOp) :
    CondField.Statement (.subRegShift c sf rn rd o) :=
  cond_dp (by decide) (bits28_shiftRegOp o) _ _ _ _

theorem CondField.rsbImm (c : Cond) (sf : Bool) (rn rd : RegNo) (o : ImmOp) :
    CondField.Statement (.rsbImm c sf rn rd o) :=
  cond_dp (by decide) (bits28_immOp o) _ _ _ _

theorem CondField.rsbImmShift (c : Cond) (sf : Bool) (rn rd : RegNo) (o : ShiftImmOp) :
    CondField.Statement (.rsbImmShift c sf rn rd o) :=
  cond_dp (by decide) (bits28_shiftImmOp o) _ _ _ _

theorem CondField.rsbRegShift (c : Cond) (sf : Bool) (rn rd : RegNo) (o : ShiftRegOp) :
    CondField.Statement (.rsbRegShift c sf rn rd o) :=
  cond_dp (by decide) (bits28_shiftRegOp o) _ _ _ _

theorem CondField.addImm (c : Cond) (sf : Bool) (rn rd : RegNo) (o : ImmOp) :
    CondField.Statement (.addImm c sf rn rd o) :=
  cond_dp (by decide) (bits28_immOp o) _ _ _ _

theorem CondField.addImmShift (c : Cond) (sf : Bool) (rn rd : RegNo) (o : ShiftImmOp) :
    CondField.Statement (.addImmShift c sf rn rd o) :=
  cond_dp (by decide) (bits28_shiftImmOp o) _ _ _ _

theorem CondField.addRegShift (c : Cond) (sf : Bool) (rn rd : RegNo) (o : ShiftRegOp) :
    CondField.Statement (.addRegShift c sf rn rd o) :=
  cond_dp (by decide) (bits28_shiftRegOp o) _ _ _ _

theorem CondField.adcImm (c : Cond) (sf : Bool) (rn rd : RegNo) (o : ImmOp) :
    CondField.Statement (.adcImm c sf rn rd o) :=
  cond_dp (by decide) (bits28_immOp o) _ _ _ _

theorem CondField.adcImmShift (c : Cond) (sf : Bool) (rn rd : RegNo) (o : ShiftImmOp) :
    CondField.Statement (.adcImmShift c sf rn rd o) :=
  cond_dp (by decide) (bits28_shiftImmOp o) _ _ _ _

theorem CondField.adcRegShift (c : Cond) (sf : Bool) (rn rd : RegNo) (o : ShiftRegOp) :
    CondField.Statement (.adcRegShift c sf rn rd o) :=
  cond_dp (by decide) (bits28_shiftRegOp o) _ _ _ _

theorem CondField.sbcImm (c : Cond) (sf : Bool) (rn rd : RegNo) (o : ImmOp) :
    CondField.Statement (.sbcImm c sf rn rd o) :=
  cond_dp (by decide) (bits28_immOp o) _ _ _ _

theorem CondField.sbcImmShift (c : Cond) (sf : Bool) (rn rd : RegNo) (o : ShiftImmOp) :
    CondField.Statement (.sbcImmShift c sf rn rd o) :=
  cond_dp (by decide) (bits28_shiftImmOp o) _ _ _ _

theorem CondField.sbcRegShift (c : Cond) (sf : Bool) (rn rd : RegNo) (o : ShiftRegOp) :
    CondField.Statement (.sbcRegShift c sf rn rd o) :=
  cond_dp (by decide) (bits28_shiftRegOp o) _ _ _ _

theorem CondField.rscImm (c : Cond) (sf : Bool) (rn rd : RegNo) (o : ImmOp) :
    CondField.Statement (.rscImm c sf rn rd o) :=
  cond_dp (by decide) (bits28_immOp o) _ _ _ _

theorem CondField.rscImmShift (c : Cond) (sf : Bool) (rn rd : RegNo) (o : ShiftImmOp) :
    CondField.Statement (.rscImmShift c sf rn rd o) :=
  cond_dp (by decide) (bits28_shiftImmOp o) _ _ _ _

theorem CondField.rscRegShift (c : Cond) (sf : Bool) (rn rd : RegNo) (o : ShiftRegOp) :
    CondField.Statement (.rscRegShift c sf rn rd o) :=
  cond_dp (by decide) (bits28_shiftRegOp o) _ _ _ _

theorem CondField.tstImm (c : Cond) (rn rd : RegNo) (o : ImmOp) :
    CondField.Statement (.tstImm c rn rd o) :=
  cond_dp (by decide) (bits28_immOp o) _ _ _ _

theorem CondField.tstImmShift (c : Cond) (rn rd : RegNo) (o : ShiftImmOp) :
    CondField.Statement (.tstImmShift c rn rd o) :=
  cond_dp (by decide) (bits28_shiftImmOp o) _ _ _ _

theorem CondField.tstRegShift (c : Cond) (rn rd : RegNo) (o : ShiftRegOp) :
    CondField.Statement (.tstRegShift c rn rd o) :=
  cond_dp (by decide) (bits28_shiftRegOp o) _ _ _ _

theorem CondField.teqImm (c : Cond) (rn rd : RegNo) (o : ImmOp) :
    CondField.Statement (.teqImm c rn rd o) :=
  cond_dp (by decide) (bits28_immOp o) _ _ _ _

theorem CondField.teqImmShift (c : Cond) (rn rd : RegNo) (o : ShiftImmOp) :
    CondField.Statement (.teqImmShift c rn rd o) :=
  cond_dp (by decide) (bits28_shiftImmOp o) _ _ _ _

theorem CondField.teqRegShift (c : Cond) (rn rd : RegNo) (o : ShiftRegOp) :
    CondField.Statement (.teqRegShift c rn rd o) :=
  cond_dp (by decide) (bits28_shiftRegOp o) _ _ _ _

theorem CondField.cmpImm (c : Cond) (rn rd : RegNo) (o : ImmOp) :
    CondField.Statement (.cmpImm c rn rd o) :=
  cond_dp (by decide) (bits28_immOp o) _ _ _ _

theorem CondField.cmpImmShift (c : Cond) (rn rd : RegNo) (o : ShiftImmOp) :
    CondField.Statement (.cmpImmShift c rn rd o) :=
  cond_dp (by decide) (bits28_shiftImmOp o) _ _ _ _

theorem CondField.cmpRegShift (c : Cond) (rn rd : RegNo) (o : ShiftRegOp) :
    CondField.Statement (.cmpRegShift c rn rd o) :=
  cond_dp (by decide) (bits28_shiftRegOp o) _ _ _ _

theorem CondField.cmnImm (c : Cond) (rn rd : RegNo) (o : ImmOp) :
    CondField.Statement (.cmnImm c rn rd o) :=
  cond_dp (by decide) (bits28_immOp o) _ _ _ _

theorem CondField.cmnImmShift (c : Cond) (rn rd : RegNo) (o : ShiftImmOp) :
    CondField.Statement (.cmnImmShift c rn rd o) :=
  cond_dp (by decide) (bits28_shiftImmOp o) _ _ _ _

theorem CondField.cmnRegShift (c : Cond) (rn rd : RegNo) (o : ShiftRegOp) :
    CondField.Statement (.cmnRegShift c rn rd o) :=
  cond_dp (by decide) (bits28_shiftRegOp o) _ _ _ _

theorem CondField.orrImm (c : Cond) (sf : Bool) (rn rd : RegNo) (o : ImmOp) :
    CondField.Statement (.orrImm c sf rn rd o) :=
  cond_dp (by decide) (bits28_immOp o) _ _ _ _

theorem CondField.orrImmShift (c : Cond) (sf : Bool) (rn rd : RegNo) (o : ShiftImmOp) :
    CondField.Statement (.orrImmShift c sf rn rd o) :=
  cond_dp (by decide) (bits28_shiftImmOp o) _ _ _ _

theorem CondField.orrRegShift (c : Cond) (sf : Bool) (rn rd : RegNo) (o : ShiftRegOp) :
    CondField.Statement (.orrRegShift c sf rn rd o) :=
  cond_dp (by decide) (bits28_shiftRegOp o) _ _ _ _

theorem CondField.movImm (c : Cond) (sf : Bool) (rn rd : RegNo) (o : ImmOp) :
    CondField.Statement (.movImm c sf rn rd o) :=
  cond_dp (by decide) (bits28_immOp o) _ _ _ _

theorem CondField.movImmShift (c : Cond) (sf : Bool) (rn rd : RegNo) (o : ShiftImmOp) :
    CondField.Statement (.movImmShift c sf rn rd o) :=
  cond_dp (by decide) (bits28_shiftImmOp o) _ _ _ _

theorem CondField.movRegShift (c : Cond) (sf : Bool) (rn rd : RegNo) (o : ShiftRegOp) :
    CondField.Statement (.movRegShift c sf rn rd o) :=
  cond_dp (by decide) (bits28_shiftRegOp o) _ _ _ _

theorem CondField.bicImm (c : Cond) (sf : Bool) (rn rd : RegNo) (o : ImmOp) :
    CondField.Statement (.bicImm c sf rn rd o) :=
  cond_dp (by decide) (bits28_immOp o) _ _ _ _

theorem CondField.bicImmShift (c : Cond) (sf : Bool) (rn rd : RegNo) (o : ShiftImmOp) :
    CondField.Statement (.bicImmShift c sf rn rd o) :=
  cond_dp (by decide) (bits28_shiftImmOp o) _ _ _ _

theorem CondField.bicRegShift (c : Cond) (sf : Bool) (rn rd : RegNo) (o : ShiftRegOp) :
    CondField.Statement (.bicRegShift c sf rn rd o) :=
  cond_dp (by decide) (bits28_shiftRegOp o) _ _ _ _

theorem CondField.mvnImm (c : Cond) (sf : Bool) (rn rd : RegNo) (o : ImmOp) :
    CondField.Statement (.mvnImm c sf rn rd o) :=
  cond_dp (by decide) (bits28_immOp o) _ _ _ _

theorem CondField.mvnImmShift (c : Cond) (sf : Bool) (rn rd : RegNo) (o : ShiftImmOp) :
    CondField.Statement (.mvnImmShift c sf rn rd o) :=
  cond_dp (by decide) (bits28_shiftImmOp o) _ _ _ _

theorem CondField.mvnRegShift (c : Cond) (sf : Bool) (rn rd : RegNo) (o : ShiftRegOp) :
    CondField.Statement (.mvnRegShift c sf rn rd o) :=
  cond_dp (by decide) (bits28_shiftRegOp o) _ _ _ _

theorem CondField.mul (c : Cond) (sf : Bool) (rd rs rm : RegNo) :
    CondField.Statement (.mul c sf rd rs rm) :=
  cond_regs (by decide) _ _ _ _ _ _

theorem CondField.mla (c : Cond) (sf : Bool) (rd rn rs rm : RegNo) :
    CondField.Statement (.mla c sf rd rn rs rm) :=
  cond_regs (by decide) _ _ _ _ _ _

theorem CondField.umull (c : Cond) (sf : Bool) (hi lo rs rm : RegNo) :
    CondField.Statement (.umull c sf hi lo rs rm) :=
  cond_regs (by decide) _ _ _ _ _ _

theorem CondField.umlal (c : Cond) (sf : Bool) (hi lo rs rm : RegNo) :
    CondField.Statement (.umlal c sf hi lo rs rm) :=
  cond_regs (by decide) _ _ _ _ _ _

theorem CondField.smull (c : Cond) (sf : Bool) (hi lo rs rm : RegNo) :
    CondField.Statement (.smull c sf hi lo rs rm) :=
  cond_regs (by decide) _ _ _ _ _ _

theorem CondField.smlal (c : Cond) (sf : Bool) (hi lo rs rm : RegNo) :
    CondField.Statement (.smlal c sf hi lo rs rm) :=
  cond_regs (by decide) _ _ _ _ _ _

theorem CondField.smlaxy (c : Cond) (rd rn rs : RegNo) (y x : Half) (rm : RegNo) :
    CondField.Statement (.smlaxy c rd rn rs y x rm) :=
  cond_dsp (by decide) _ _ _ _ _ _ _

theorem CondField.smlawy (c : Cond) (rd rn rs : RegNo) (y : Half) (rm : RegNo) :
    CondField.Statement (.smlawy c rd rn rs y rm) :=
  cond_dsp (by decide) _ _ _ _ _ _ _

theorem CondField.smulwy (c : Cond) (rd rs : RegNo) (y : Half) (rm : RegNo) :
    CondField.Statement (.smulwy c rd rs y rm) :=
  cond_dsp (by decide) _ _ _ _ _ _ _

theorem CondField.smlalxy (c : Cond) (hi lo rs : RegNo) (y x : Half) (rm : RegNo) :
    CondField.Statement (.smlalxy c hi lo rs y x rm) :=
  cond_dsp (by decide) _ _ _ _ _ _ _

theorem CondField.smulxy (c : Cond) (rd rs : RegNo) (y x : Half) (rm : RegNo) :
    CondField.Statement (.smulxy c rd rs y x rm) :=
  cond_dsp (by decide) _ _ _ _ _ _ _

theorem CondField.swp (c : Cond) (rn rd rm : RegNo) :
    CondField.Statement (.swp c rn rd rm) :=
  cond_regs (by decide) _ _ _ _ _ _

theorem CondField.swpb (c : Cond) (rn rd rm : RegNo) :
    CondField.Statement (.swpb c rn rd rm) :=
  cond_regs (by decide) _ _ _ _ _ _

theorem CondField.strhImm (c : Cond) (p u w : Bool) (rn rd : RegNo) (off : BitVec 8) :
    CondField.Statement (.strhImm c p u w rn rd off) :=
  cond_lsx (by decide) _ _ _ _ _ _ _ _

theorem CondField.strhReg (c : Cond) (p u w : Bool) (rn rd rm : RegNo) :
    CondField.Statement (.strhReg c p u w rn rd rm) :=
  cond_lsx (by decide) _ _ _ _ _ _ _ _

theorem CondField.ldrhImm (c : Cond) (p u w : Bool) (rn rd : RegNo) (off : BitVec 8) :
    CondField.Statement (.ldrhImm c p u w rn rd off) :=
  cond_lsx (by decide) _ _ _ _ _ _ _ _

theorem CondField.ldrhReg (c : Cond) (p u w : Bool) (rn rd rm : RegNo) :
    CondField.Statement (.ldrhReg c p u w rn rd rm) :=
  cond_lsx (by decide) _ _ _ _ _ _ _ _

theorem CondField.ldrsbImm (c : Cond) (p u w : Bool) (rn rd : RegNo) (off : BitVec 8) :
    CondField.Statement (.ldrsbImm c p u w rn rd off) :=
  cond_lsx (by decide) _ _ _ _ _ _ _ _

theorem CondField.ldrsbReg (c : Cond) (p u w : Bool) (rn rd rm : RegNo) :
    CondField.Statement (.ldrsbReg c p u w rn rd rm) :=
  cond_lsx (by decide) _ _ _ _ _ _ _ _

theorem CondField.ldrshImm (c : Cond) (p u w : Bool) (rn rd : RegNo) (off : BitVec 8) :
    CondField.Statement (.ldrshImm c p u w rn rd off) :=
  cond_lsx (by decide) _ _ _ _ _ _ _ _

theorem CondField.ldrshReg (c : Cond) (p u w : Bool) (rn rd rm : RegNo) :
    CondField.Statement (.ldrshReg c p u w rn rd rm) :=
  cond_lsx (by decide) _ _ _ _ _ _ _ _

theorem CondField.ldrdImm (c : Cond) (p u w : Bool) (rn rd : RegNo) (off : BitVec 8) :
    CondField.Statement (.ldrdImm c p u w rn rd off) :=
  cond_lsx (by decide) _ _ _ _ _ _ _ _

theorem CondField.ldrdReg (c : Cond) (p u w : Bool) (rn rd rm : RegNo) :
    CondField.Statement (.ldrdReg c p u w rn rd rm) :=
  cond_lsx (by decide) _ _ _ _ _ _ _ _

theorem CondField.strdImm (c : Cond) (p u w : Bool) (rn rd : RegNo) (off : BitVec 8) :
    CondField.Statement (.strdImm c p u w rn rd off) :=
  cond_lsx (by decide) _ _ _ _ _ _ _ _

theorem CondField.strdReg (c : Cond) (p u w : Bool) (rn rd rm : RegNo) :
    CondField.Statement (.strdReg c p u w rn rd rm) :=
  cond_lsx (by decide) _ _ _ _ _ _ _ _

theorem CondField.unpredLsx10 (word : Word) :
    CondField.Statement (.unpredLsx10 word) := rfl

theorem CondField.unpredLsx11 (word : Word) :
    CondField.Statement (.unpredLsx11 word) := rfl

theorem CondField.ldrImm (c : Cond) (u w : Bool) (rn rd : RegNo) (off : BitVec 12) :
    CondField.Statement (.ldrImm c u w rn rd off) :=
  cond_ls (by decide) (bits28_field (by decide) _) _ _ _ _ _

theorem CondField.ldrImmPost (c : Cond) (u : Bool) (rn rd : RegNo) (off : BitVec 12) :
    CondField.Statement (.ldrImmPost c u rn rd off) :=
  cond_ls (by decide) (bits28_field (by decide) _) _ _ _ _ _

theorem CondField.ldrReg (c : Cond) (u w : Bool) (rn rd : RegNo) (o : ShiftImmOp) :
    CondField.Statement (.ldrReg c u w rn rd o) :=
  cond_ls (by decide) (bits28_shiftImmOp o) _ _ _ _ _

theorem CondField.ldrRegPost (c : Cond) (u : Bool) (rn rd : RegNo) (o : ShiftImmOp) :
    CondField.Statement (.ldrRegPost c u rn rd o) :=
  cond_ls (by decide) (bits28_shiftImmOp o) _ _ _ _ _

theorem CondField.ldrtImm (c : Cond) (u : Bool) (rn rd : RegNo) (off : BitVec 12) :
    CondField.Statement (.ldrtImm c u rn rd off) :=
  cond_ls (by decide) (bits28_field (by decide) _) _ _ _ _ _

theorem CondField.ldrtReg (c : Cond) (u : Bool) (rn rd : RegNo) (o : ShiftImmOp) :
    CondField.Statement (.ldrtReg c u rn rd o) :=
  cond_ls (by decide) (bits28_shiftImmOp o) _ _ _ _ _

theorem CondField.ldrbImm (c : Cond) (u w : Bool) (rn rd : RegNo) (off : BitVec 12) :
    CondField.Statement (.ldrbImm c u w rn rd off) :=
  cond_ls (by decide) (bits28_field (by decide) _) _ _ _ _ _

theorem CondField.ldrbImmPost (c : Cond) (u : Bool) (rn rd : RegNo) (off : BitVec 12) :
    CondField.Statement (.ldrbImmPost c u rn rd off) :=
  cond_ls (by decide) (bits28_field (by decide) _) _ _ _ _ _

theorem CondField.ldrbReg (c : Cond) (u w : Bool) (rn rd : RegNo) (o : ShiftImmOp) :
    CondField.Statement (.ldrbReg c u w rn rd o) :=
  cond_ls (by decide) (bits28_shiftImmOp o) _ _ _ _ _

theorem CondField.ldrbRegPost (c : Cond) (u : Bool) (rn rd : RegNo) (o : ShiftImmOp) :
    CondField.Statement (.ldrbRegPost c u rn rd o) :=
  cond_ls (by decide) (bits28_shiftImmOp o) _ _ _ _ _

theorem CondField.ldrbtImm (c : Cond) (u : Bool) (rn rd : RegNo) (off : BitVec 12) :
    CondField.Statement (.ldrbtImm c u rn rd off) :=
  cond_ls (by decide) (bits28_field (by decide) _) _ _ _ _ _

theorem CondField.ldrbtReg (c : Cond) (u : Bool) (rn rd : RegNo) (o : ShiftImmOp) :
    CondField.Statement (.ldrbtReg c u rn rd o) :=
  cond_ls (by decide) (bits28_shiftImmOp o) _ _ _ _ _

theorem CondField.strImm (c : Cond) (u w : Bool) (rn rd : RegNo) (off : BitVec 12) :
    CondField.Statement (.strImm c u w rn rd off) :=
  cond_ls (by decide) (bits28_field (by decide) _) _ _ _ _ _

theorem CondField.strImmPost (c : Cond) (u : Bool) (rn rd : RegNo) (off : BitVec 12) :
    CondField.Statement (.strImmPost c u rn rd off) :=
  cond_ls (by decide) (bits28_field (by decide) _) _ _ _ _ _

theorem CondField.strReg (c : Cond) (u w : Bool) (rn rd : RegNo) (o : ShiftImmOp) :
    CondField.Statement (.strReg c u w rn rd o) :=
  cond_ls (by decide) (bits28_shiftImmOp o) _ _ _ _ _

theorem CondField.strRegPost (c : Cond) (u : Bool) (rn rd : RegNo) (o : ShiftImmOp) :
    CondField.Statement (.strRegPost c u rn rd o) :=
  cond_ls (by decide) (bits28_shiftImmOp o) _ _ _ _ _

theorem CondField.strtImm (c : Cond) (u : Bool) (rn rd : RegNo) (off : BitVec 12) :
    CondField.Statement (.strtImm c u rn rd off) :=
  cond_ls (by decide) (bits28_field (by decide) _) _ _ _ _ _

theorem CondField.strtReg (c : Cond) (u : Bool) (rn rd : RegNo) (o : ShiftImmOp) :
    CondField.Statement (.strtReg c u rn rd o) :=
  cond_ls (by decide) (bits28_shiftImmOp o) _ _ _ _ _

theorem CondField.strbImm (c : Cond) (u w : Bool) (rn rd : RegNo) (off : BitVec 12) :
    CondField.Statement (.strbImm c u w rn rd off) :=
  cond_ls (by decide) (bits28_field (by decide) _) _ _ _ _ _

theorem CondField.strbImmPost (c : Cond) (u : Bool) (rn rd : RegNo) (off : BitVec 12) :
    CondField.Statement (.strbImmPost c u rn rd off) :=
  cond_ls (by decide) (bits28_field (by decide) _) _ _ _ _ _

theorem CondField.strbReg (c : Cond) (u w : Bool) (rn rd : RegNo) (o : ShiftImmOp) :
    CondField.Statement (.strbReg c u w rn rd o) :=
  cond_ls (by decide) (bits28_shiftImmOp o) _ _ _ _ _

theorem CondField.strbRegPost (c : Cond) (u : Bool) (rn rd : RegNo) (o : ShiftImmOp) :
    CondField.Statement (.strbRegPost c u rn rd o) :=
  cond_ls (by decide) (bits28_shiftImmOp o) _ _ _ _ _

theorem CondField.strbtImm (c : Cond) (u : Bool) (rn rd : RegNo) (off : BitVec 12) :
    CondField.Statement (.strbtImm c u rn rd off) :=
  cond_ls (by decide) (bits28_field (by decide) _) _ _ _ _ _

theorem CondField.strbtReg (c : Cond) (u : Bool) (rn rd : RegNo) (o : ShiftImmOp) :
    CondField.Statement (.strbtReg c u rn rd o) :=
  cond_ls (by decide) (bits28_shiftImmOp o) _ _ _ _ _

theorem CondField.pldImm (u : Bool) (rn : RegNo) (off : BitVec 12) :
    CondField.Statement (.pldImm u rn off) := by
  simp [CondField.Statement, encode, Instr.cond, bits28_or, bits28_field, bits28_flag,
    show Cond.ofBits (bits 28 4 (0xF550F000#32 : Word)) = none by decide]

theorem CondField.pldReg (u : Bool) (rn : RegNo) (o : ShiftImmOp) :
    CondField.Statement (.pldReg u rn o) := by
  simp [CondField.Statement, encode, Instr.cond, bits28_or, bits28_field, bits28_flag, bits28_shiftImmOp,
    show Cond.ofBits (bits 28 4 (0xF750F000#32 : Word)) = none by decide]

theorem CondField.ldm (c : Cond) (p u w : Bool) (rn : RegNo) (list : BitVec 16) :
    CondField.Statement (.ldm c p u w rn list) :=
  cond_lsm (by decide) (by decide) _ _ _ _ _ _

theorem CondField.ldmUser (c : Cond) (p u w : Bool) (rn : RegNo) (list : BitVec 15) :
    CondField.Statement (.ldmUser c p u w rn list) :=
  cond_lsm (by decide) (by decide) _ _ _ _ _ _

theorem CondField.ldmReturn (c : Cond) (p u w : Bool) (rn : RegNo) (list : BitVec 15) :
    CondField.Statement (.ldmReturn c p u w rn list) :=
  cond_lsm (by decide) (by decide) _ _ _ _ _ _

theorem CondField.stm (c : Cond) (p u w : Bool) (rn : RegNo) (list : BitVec 16) :
    CondField.Statement (.stm c p u w rn list) :=
  cond_lsm (by decide) (by decide) _ _ _ _ _ _

theorem CondField.stmUser (c : Cond) (p u w : Bool) (rn : RegNo) (list : BitVec 16) :
    CondField.Statement (.stmUser c p u w rn list) :=
  cond_lsm (by decide) (by decide) _ _ _ _ _ _

theorem CondField.b (c : Cond) (imm : BitVec 24) :
    CondField.Statement (.b c imm) := by
  simp [CondField.Statement, encode, Instr.cond, bits28_or, bits28_field,
    cond_base (base := 0x0A000000#32) (by decide) c]

theorem CondField.bl (c : Cond) (imm : BitVec 24) :
    CondField.Statement (.bl c imm) := by
  simp [CondField.Statement, encode, Instr.cond, bits28_or, bits28_field,
    cond_base (base := 0x0B000000#32) (by decide) c]

theorem CondField.bx (c : Cond) (rm : RegNo) :
    CondField.Statement (.bx c rm) := by
  simp [CondField.Statement, encode, Instr.cond, bits28_or, bits28_field,
    cond_base (base := 0x012FFF10#32) (by decide) c]

theorem CondField.blxImm (h : Bool) (imm : BitVec 24) :
    CondField.Statement (.blxImm h imm) := by
  simp [CondField.Statement, encode, Instr.cond, bits28_or, bits28_field, bits28_flag,
    show Cond.ofBits (bits 28 4 (0xFA000000#32 : Word)) = none by decide]

theorem CondField.blxReg (c : Cond) (rm : RegNo) :
    CondField.Statement (.blxReg c rm) := by
  simp [CondField.Statement, encode, Instr.cond, bits28_or, bits28_field,
    cond_base (base := 0x012FFF30#32) (by decide) c]

theorem CondField.mrs (c : Cond) (r : Psr) (rd : RegNo) :
    CondField.Statement (.mrs c r rd) := by
  simp [CondField.Statement, encode, Instr.cond, bits28_or, bits28_field, bits28_flag,
    cond_base (base := 0x010F0000#32) (by decide) c]

theorem CondField.msrImm (c : Cond) (r : Psr) (mask : BitVec 4) (o : ImmOp) :
    CondField.Statement (.msrImm c r mask o) := by
  simp [CondField.Statement, encode, Instr.cond, bits28_or, bits28_field, bits28_flag, bits28_immOp,
    cond_base (base := 0x0320F000#32) (by decide) c]

theorem CondField.msrReg (c : Cond) (r : Psr) (mask : BitVec 4) (rm : RegNo) :
    CondField.Statement (.msrReg c r mask rm) := by
  simp [CondField.Statement, encode, Instr.cond, bits28_or, bits28_field, bits28_flag,
    cond_base (base := 0x0120F000#32) (by decide) c]

theorem CondField.clz (c : Cond) (rd rm : RegNo) :
    CondField.Statement (.clz c rd rm) := by
  simp [CondField.Statement, encode, Instr.cond, bits28_or, bits28_field,
    cond_base (base := 0x016F0F10#32) (by decide) c]

theorem CondField.qadd (c : Cond) (rn rd rm : RegNo) :
    CondField.Statement (.qadd c rn rd rm) :=
  cond_regs (by decide) _ _ _ _ _ _

theorem CondField.qsub (c : Cond) (rn rd rm : RegNo) :
    CondField.Statement (.qsub c rn rd rm) :=
  cond_regs (by decide) _ _ _ _ _ _

theorem CondField.qdadd (c : Cond) (rn rd rm : RegNo) :
    CondField.Statement (.qdadd c rn rd rm) :=
  cond_regs (by decide) _ _ _ _ _ _

theorem CondField.qdsub (c : Cond) (rn rd rm : RegNo) :
    CondField.Statement (.qdsub c rn rd rm) :=
  cond_regs (by decide) _ _ _ _ _ _

theorem CondField.bkpt (c : Cond) (immHi : BitVec 12) (immLo : BitVec 4) :
    CondField.Statement (.bkpt c immHi immLo) := by
  simp [CondField.Statement, encode, Instr.cond, bits28_or, bits28_field,
    cond_base (base := 0x01200070#32) (by decide) c]

theorem CondField.swi (c : Cond) (imm : BitVec 24) :
    CondField.Statement (.swi c imm) := by
  simp [CondField.Statement, encode, Instr.cond, bits28_or, bits28_field,
    cond_base (base := 0x0F000000#32) (by decide) c]

theorem CondField.cdp (c : Cond) (op1 crn crd cp : BitVec 4) (op2 : BitVec 3) (crm : BitVec 4) :
    CondField.Statement (.cdp c op1 crn crd cp op2 crm) :=
  (congrArg Cond.ofBits (bits28_cp (by decide) _ _ _ _ _ _ _)).trans (cond_base (by decide) _)

theorem CondField.mcr (c : Cond) (op1 : BitVec 3) (crn rd cp : BitVec 4) (op2 : BitVec 3) (crm : BitVec 4) :
    CondField.Statement (.mcr c op1 crn rd cp op2 crm) :=
  (congrArg Cond.ofBits (bits28_cp (by decide) _ _ _ _ _ _ _)).trans (cond_base (by decide) _)

theorem CondField.mrc (c : Cond) (op1 : BitVec 3) (crn rd cp : BitVec 4) (op2 : BitVec 3) (crm : BitVec 4) :
    CondField.Statement (.mrc c op1 crn rd cp op2 crm) :=
  (congrArg Cond.ofBits (bits28_cp (by decide) _ _ _ _ _ _ _)).trans (cond_base (by decide) _)

theorem CondField.stcV4 (c : Cond) (p u n w : Bool) (rn crd cp : BitVec 4) (off : BitVec 8) :
    CondField.Statement (.stcV4 c p u n w rn crd cp off) :=
  (congrArg Cond.ofBits (bits28_ldc _ _ _ _ _ _ _ _ _)).trans (cond_base (by decide) _)

theorem CondField.ldcV4 (c : Cond) (p u n w : Bool) (rn crd cp : BitVec 4) (off : BitVec 8) :
    CondField.Statement (.ldcV4 c p u n w rn crd cp off) :=
  (congrArg Cond.ofBits (bits28_ldc _ _ _ _ _ _ _ _ _)).trans (cond_base (by decide) _)

theorem CondField.stcPre (c : Cond) (u n w : Bool) (rn crd cp : BitVec 4) (off : BitVec 8) :
    CondField.Statement (.stcPre c u n w rn crd cp off) :=
  (congrArg Cond.ofBits (bits28_ldc _ _ _ _ _ _ _ _ _)).trans (cond_base (by decide) _)

theorem CondField.stcPostUp (c : Cond) (n w : Bool) (rn crd cp : BitVec 4) (off : BitVec 8) :
    CondField.Statement (.stcPostUp c n w rn crd cp off) :=
  (congrArg Cond.ofBits (bits28_ldc _ _ _ _ _ _ _ _ _)).trans (cond_base (by decide) _)

theorem CondField.stcPostDown (c : Cond) (w : Bool) (rn crd cp : BitVec 4) (off : BitVec 8) :
    CondField.Statement (.stcPostDown c w rn crd cp off) :=
  (congrArg Cond.ofBits (bits28_ldc _ _ _ _ _ _ _ _ _)).trans (cond_base (by decide) _)

theorem CondField.stcPostDownLong (c : Cond) (rn crd cp : BitVec 4) (off : BitVec 8) :
    CondField.Statement (.stcPostDownLong c rn crd cp off) :=
  (congrArg Cond.ofBits (bits28_ldc _ _ _ _ _ _ _ _ _)).trans (cond_base (by decide) _)

theorem CondField.ldcPre (c : Cond) (u n w : Bool) (rn crd cp : BitVec 4) (off : BitVec 8) :
    CondField.Statement (.ldcPre c u n w rn crd cp off) :=
  (congrArg Cond.ofBits (bits28_ldc _ _ _ _ _ _ _ _ _)).trans (cond_base (by decide) _)

theorem CondField.ldcPostUp (c : Cond) (n w : Bool) (rn crd cp : BitVec 4) (off : BitVec 8) :
    CondField.Statement (.ldcPostUp c n w rn crd cp off) :=
  (congrArg Cond.ofBits (bits28_ldc _ _ _ _ _ _ _ _ _)).trans (cond_base (by decide) _)

theorem CondField.ldcPostDown (c : Cond) (w : Bool) (rn crd cp : BitVec 4) (off : BitVec 8) :
    CondField.Statement (.ldcPostDown c w rn crd cp off) :=
  (congrArg Cond.ofBits (bits28_ldc _ _ _ _ _ _ _ _ _)).trans (cond_base (by decide) _)

theorem CondField.ldcPostDownLong (c : Cond) (rn crd cp : BitVec 4) (off : BitVec 8) :
    CondField.Statement (.ldcPostDownLong c rn crd cp off) :=
  (congrArg Cond.ofBits (bits28_ldc _ _ _ _ _ _ _ _ _)).trans (cond_base (by decide) _)

theorem CondField.mcrr (c : Cond) (rn rd cp op crm : BitVec 4) :
    CondField.Statement (.mcrr c rn rd cp op crm) := by
  simp [CondField.Statement, encode, Instr.cond, bits28_or, bits28_field,
    cond_base (base := 0x0C400000#32) (by decide) c]

theorem CondField.mrrc (c : Cond) (rn rd cp op crm : BitVec 4) :
    CondField.Statement (.mrrc c rn rd cp op crm) := by
  simp [CondField.Statement, encode, Instr.cond, bits28_or, bits28_field,
    cond_base (base := 0x0C500000#32) (by decide) c]

theorem CondField.cdp2 (op1 crn crd cp : BitVec 4) (op2 : BitVec 3) (crm : BitVec 4) :
    CondField.Statement (.cdp2 op1 crn crd cp op2 crm) :=
  (congrArg Cond.ofBits (bits28_cp (by decide) _ _ _ _ _ _ _)).trans (show Cond.ofBits (bits 28 4 (0xFE000000#32 : Word)) = none by decide)

theorem CondField.mcr2 (op1 : BitVec 3) (crn rd cp : BitVec 4) (op2 : BitVec 3) (crm : BitVec 4) :
    CondField.Statement (.mcr2 op1 crn rd cp op2 crm) :=
  (congrArg Cond.ofBits (bits28_cp (by decide) _ _ _ _ _ _ _)).trans (show Cond.ofBits (bits 28 4 (0xFE000010#32 : Word)) = none by decide)

theorem CondField.mrc2 (op1 : BitVec 3) (crn rd cp : BitVec 4) (op2 : BitVec 3) (crm : BitVec 4) :
    CondField.Statement (.mrc2 op1 crn rd cp op2 crm) :=
  (congrArg Cond.ofBits (bits28_cp (by decide) _ _ _ _ _ _ _)).trans (show Cond.ofBits (bits 28 4 (0xFE100010#32 : Word)) = none by decide)

theorem CondField.stc2 (p u n w : Bool) (rn crd cp : BitVec 4) (off : BitVec 8) :
    CondField.Statement (.stc2 p u n w rn crd cp off) :=
  (congrArg Cond.ofBits (bits28_ldc _ _ _ _ _ _ _ _ _)).trans (show Cond.ofBits (bits 28 4 (0xFC000000#32 : Word)) = none by decide)

theorem CondField.ldc2 (p u n w : Bool) (rn crd cp : BitVec 4) (off : BitVec 8) :
    CondField.Statement (.ldc2 p u n w rn crd cp off) :=
  (congrArg Cond.ofBits (bits28_ldc _ _ _ _ _ _ _ _ _)).trans (show Cond.ofBits (bits 28 4 (0xFC100000#32 : Word)) = none by decide)

theorem CondField.undefMedia (word : Word) :
    CondField.Statement (.undefMedia word) := rfl

theorem CondField.undefMsrImm (word : Word) :
    CondField.Statement (.undefMsrImm word) := rfl

theorem CondField.undefMul (word : Word) :
    CondField.Statement (.undefMul word) := rfl

theorem CondField.undefSwap21 (word : Word) :
    CondField.Statement (.undefSwap21 word) := rfl

theorem CondField.undefSwap20 (word : Word) :
    CondField.Statement (.undefSwap20 word) := rfl

theorem CondField.undefSwap23 (word : Word) :
    CondField.Statement (.undefSwap23 word) := rfl

theorem CondField.undefMisc (word : Word) :
    CondField.Statement (.undefMisc word) := rfl

theorem CondField.nvV4 (word : Word) :
    CondField.Statement (.nvV4 word) := rfl

theorem CondField.unpredUncond (word : Word) :
    CondField.Statement (.unpredUncond word) := rfl

end Sys2Proof.Laws
end

