-- ==== Sys2Proof/Tests/Slice0.lean ====
section
/-! SUPPORT. Tests. Expected results are the spec's own (95_test_vectors.md and the examples of the rules); the witnesses
at the end meet the hypotheses of the obligations. -/

set_option Elab.async false

namespace Sys2Proof.Tests

open Sys2Proof Sys2Proof.Machine Sys2Proof.Config

/-! ### The start states of 95_test_vectors.md -/

/-- Raw memory over [0x1000, 0x3000) and [0x8000, 0x8010), byte places equal to addresses; the rest is invalid. -/
def vectorPages : PageTable :=
  [(0, [⟨0, 0x1000, 0, .invalid⟩, ⟨0x1000, 0x3000, 0x1000, .raw 0x1000⟩, ⟨0x3000, 0x8000, 0, .invalid⟩,
        ⟨0x8000, 0x8010, 0x8000, .raw 0x8000⟩, ⟨0x8010, 0x10000, 0, .invalid⟩])]

/-- The words of a list stored at their addresses. -/
def storeAll (ws : List (Nat × Nat)) (m : Memory) : Memory :=
  ws.foldl (fun m p => m.writeWord p.1 (BitVec.ofNat 32 p.2)) m

/-- The values of a list written to their registers. -/
def setAll (rs : List (Nat × Nat)) (r : Vector Word 16) : Vector Word 16 :=
  rs.foldl (fun r p => r.set! p.1 (BitVec.ofNat 32 p.2)) r

/-- The start state of a row: the word at 0x8000, on the CPU called ARM9 here. -/
def start (v : Variant) (e : Endian) (x : ExcModel) (cpsr spsr : Nat) (regs mem : List (Nat × Nat)) (word : Nat) :
    State :=
  let c := Cpu.reset { variant := v, endian := e, clockDivider := 2, vectorBase := .low }
  let c1 := { c with
    bus := { addressBits := 32, pageBits := 16, readPages := vectorPages, writePages := vectorPages }
    r := setAll regs (c.r.set 0 0xCCCCCCCC#32), cpsr := BitVec.ofNat 32 cpsr, spsr := BitVec.ofNat 32 spsr }
  { State.reset with
    arm9 := c1.setPC 0x8000#32, mem := storeAll ((0x8000, word) :: mem) []
    params := { defaultParams with excModel := x } }

/-- The step is normal and changes these registers, these memory words, PC and CPSR, and costs CLOCK_DIVIDER. -/
def ends (s : State) (regs : List (Nat × Nat)) (pc cpsr : Nat) (mem : List (Nat × Nat)) : Bool :=
  match s.hostStep .arm9 with
  | some (.normal, t) =>
    t.arm9.r.pop == (setAll regs s.arm9.r).pop && t.arm9.pc == BitVec.ofNat 32 pc &&
      t.arm9.cpsr == BitVec.ofNat 32 cpsr && t.mem == storeAll mem s.mem && t.arm9.tick == s.arm9.tick + 2
  | _ => false

/-- The step raises: the halt record is set, the tick is charged, and nothing else but these memory words changes. -/
def stops (s : State) (why : StopReason) (mem : List (Nat × Nat)) : Bool :=
  match s.hostStep .arm9 with
  | some (.raised h, t) =>
    h == ⟨why, 0x8000#32⟩ && t == { s with
      mem := storeAll mem s.mem, arm9 := { s.arm9 with halted := some h, tick := s.arm9.tick + 2 } }
  | _ => false

/-! ### One step on rows of 95_test_vectors.md, sections 2 to 11 -/

/-- 95_test_vectors.md: `MOVS r0, r1, LSL #0` E1B00001; r1=0x80000001; flags C: r0=0x80000001; flags NC. -/
theorem test_movImmShift_run : ends (start .v5 .little .unsupported 0x20000000 0x0 [(1, 0x80000001)] [] 0xE1B00001)
    [(0x0, 0x80000001)] 0x8004 0xA0000000 [] = true := by
  decide

/-- 95_test_vectors.md: `MOVS r0, #0xFF` E3B000FF; flags C: r0=0xFF; flags C. -/
theorem test_movImm_run : ends (start .v5 .little .unsupported 0x20000000 0x0 [] [] 0xE3B000FF)
    [(0x0, 0xFF)] 0x8004 0x20000000 [] = true := by
  decide

/-- 95_test_vectors.md: `MOVS r0, r1, LSL r2 (r2 = 0)` E1B00211; r1=0x1, r2=0x0; flags C: r0=0x1; flags C. -/
theorem test_movRegShift_run : ends (start .v5 .little .unsupported 0x20000000 0x0 [(1, 0x1), (2, 0x0)] [] 0xE1B00211)
    [(0x0, 0x1)] 0x8004 0x20000000 [] = true := by
  decide

/-- 95_test_vectors.md: `MOVS r0, pc, LSL r2` E1B0021F; r2=0x1; flags -: Unpredictable(RegShiftPC). -/
theorem test_movRegShift_stop : stops (start .v5 .little .unsupported 0x0 0x0 [(2, 0x1)] [] 0xE1B0021F)
    (.unpredictable .regShiftPC) [] = true := by
  decide

/-- 95_test_vectors.md: `ADD pc, r1, r2, LSL r3` E081F312; flags -: Unpredictable(RegShiftPC). -/
theorem test_addRegShift_stop : stops (start .v5 .little .unsupported 0x0 0x0 [] [] 0xE081F312)
    (.unpredictable .regShiftPC) [] = true := by
  decide

/-- 95_test_vectors.md: `ANDS r0, r1, r2` E0110002; r1=0xF0F0F0F0, r2=0xF0F0F0F; flags CV: r0=0x0; flags ZCV. -/
theorem test_andImmShift_run : ends (start .v5 .little .unsupported 0x30000000 0x0 [(1, 0xF0F0F0F0), (2, 0xF0F0F0F)] [] 0xE0110002)
    [(0x0, 0x0)] 0x8004 0x70000000 [] = true := by
  decide

/-- 95_test_vectors.md: `EORS r0, r1, r2` E0310002; r1=0xFFFFFFFF, r2=0x7FFFFFFF; flags -: r0=0x80000000; flags N. -/
theorem test_eorImmShift_run : ends (start .v5 .little .unsupported 0x0 0x0 [(1, 0xFFFFFFFF), (2, 0x7FFFFFFF)] [] 0xE0310002)
    [(0x0, 0x80000000)] 0x8004 0x80000000 [] = true := by
  decide

/-- 95_test_vectors.md: `SUBS r0, r1, #3` E2510003; r1=0x5; flags -: r0=0x2; flags C. -/
theorem test_subImm_run : ends (start .v5 .little .unsupported 0x0 0x0 [(1, 0x5)] [] 0xE2510003)
    [(0x0, 0x2)] 0x8004 0x20000000 [] = true := by
  decide

/-- 95_test_vectors.md: `RSBS r0, r1, #0` E2710000; r1=0x1; flags -: r0=0xFFFFFFFF; flags N. -/
theorem test_rsbImm_run : ends (start .v5 .little .unsupported 0x0 0x0 [(1, 0x1)] [] 0xE2710000)
    [(0x0, 0xFFFFFFFF)] 0x8004 0x80000000 [] = true := by
  decide

/-- 95_test_vectors.md: `ADDS r0, r1, r2` E0910002; r1=0xFFFFFFFF, r2=0x1; flags -: r0=0x0; flags ZC. -/
theorem test_addImmShift_run : ends (start .v5 .little .unsupported 0x0 0x0 [(1, 0xFFFFFFFF), (2, 0x1)] [] 0xE0910002)
    [(0x0, 0x0)] 0x8004 0x60000000 [] = true := by
  decide

/-- 95_test_vectors.md: `ADD r0, pc, #4` E28F0004; flags -: r0=0x800C; flags -. -/
theorem test_addImm_run : ends (start .v5 .little .unsupported 0x0 0x0 [] [] 0xE28F0004)
    [(0x0, 0x800C)] 0x8004 0x0 [] = true := by
  decide

/-- 95_test_vectors.md: `ADCS r0, r1, r2` E0B10002; r1=0xFFFFFFFF, r2=0x0; flags C: r0=0x0; flags ZC. -/
theorem test_adcImmShift_run : ends (start .v5 .little .unsupported 0x20000000 0x0 [(1, 0xFFFFFFFF), (2, 0x0)] [] 0xE0B10002)
    [(0x0, 0x0)] 0x8004 0x60000000 [] = true := by
  decide

/-- 95_test_vectors.md: `SBCS r0, r1, r2` E0D10002; r1=0x5, r2=0x3; flags -: r0=0x1; flags C. -/
theorem test_sbcImmShift_run : ends (start .v5 .little .unsupported 0x0 0x0 [(1, 0x5), (2, 0x3)] [] 0xE0D10002)
    [(0x0, 0x1)] 0x8004 0x20000000 [] = true := by
  decide

/-- 95_test_vectors.md: `RSCS r0, r1, r2` E0F10002; r1=0x3, r2=0x5; flags C: r0=0x2; flags C. -/
theorem test_rscImmShift_run : ends (start .v5 .little .unsupported 0x20000000 0x0 [(1, 0x3), (2, 0x5)] [] 0xE0F10002)
    [(0x0, 0x2)] 0x8004 0x20000000 [] = true := by
  decide

/-- 95_test_vectors.md: `TST r1, r2` E1110002; r1=0xF0, r2=0xF; flags NCV: no change; flags ZCV. -/
theorem test_tstImmShift_run : ends (start .v5 .little .unsupported 0xB0000000 0x0 [(1, 0xF0), (2, 0xF)] [] 0xE1110002)
    [] 0x8004 0x70000000 [] = true := by
  decide

/-- 95_test_vectors.md: `TST r1, #0x80000000` E3110102; r1=0x80000000; flags Z: no change; flags NC. -/
theorem test_tstImm_run : ends (start .v5 .little .unsupported 0x40000000 0x0 [(1, 0x80000000)] [] 0xE3110102)
    [] 0x8004 0xA0000000 [] = true := by
  decide

/-- 95_test_vectors.md: `TEQ r1, r2` E1310002; r1=0x12345678, r2=0x12345678; flags -: no change; flags Z. -/
theorem test_teqImmShift_run : ends (start .v5 .little .unsupported 0x0 0x0 [(1, 0x12345678), (2, 0x12345678)] [] 0xE1310002)
    [] 0x8004 0x40000000 [] = true := by
  decide

/-- 95_test_vectors.md: `CMP r1, r2` E1510002; r1=0x1, r2=0x2; flags -: no change; flags N. -/
theorem test_cmpImmShift_run : ends (start .v5 .little .unsupported 0x0 0x0 [(1, 0x1), (2, 0x2)] [] 0xE1510002)
    [] 0x8004 0x80000000 [] = true := by
  decide

/-- 95_test_vectors.md: `CMN r1, r2` E1710002; r1=0xFFFFFFFF, r2=0x1; flags -: no change; flags ZC. -/
theorem test_cmnImmShift_run : ends (start .v5 .little .unsupported 0x0 0x0 [(1, 0xFFFFFFFF), (2, 0x1)] [] 0xE1710002)
    [] 0x8004 0x60000000 [] = true := by
  decide

/-- 95_test_vectors.md: `ORRS r0, r1, r2` E1910002; r1=0x80000000, r2=0x1; flags Z: r0=0x80000001; flags N. -/
theorem test_orrImmShift_run : ends (start .v5 .little .unsupported 0x40000000 0x0 [(1, 0x80000000), (2, 0x1)] [] 0xE1910002)
    [(0x0, 0x80000001)] 0x8004 0x80000000 [] = true := by
  decide

/-- 95_test_vectors.md: `ORR r0, r1, #0xFF000000` E38104FF; r1=0x1; flags -: r0=0xFF000001; flags -. -/
theorem test_orrImm_run : ends (start .v5 .little .unsupported 0x0 0x0 [(1, 0x1)] [] 0xE38104FF)
    [(0x0, 0xFF000001)] 0x8004 0x0 [] = true := by
  decide

/-- 95_test_vectors.md: `BICS r0, r1, r2` E1D10002; r1=0xFFFFFFFF, r2=0x7FFFFFFF; flags -: r0=0x80000000; flags N. -/
theorem test_bicImmShift_run : ends (start .v5 .little .unsupported 0x0 0x0 [(1, 0xFFFFFFFF), (2, 0x7FFFFFFF)] [] 0xE1D10002)
    [(0x0, 0x80000000)] 0x8004 0x80000000 [] = true := by
  decide

/-- 95_test_vectors.md: `BIC r0, r1, #0xFF` E3C100FF; r1=0x12345678; flags -: r0=0x12345600; flags -. -/
theorem test_bicImm_run : ends (start .v5 .little .unsupported 0x0 0x0 [(1, 0x12345678)] [] 0xE3C100FF)
    [(0x0, 0x12345600)] 0x8004 0x0 [] = true := by
  decide

/-- 95_test_vectors.md: `MVNS r0, #0` E3F00000; flags -: r0=0xFFFFFFFF; flags N. -/
theorem test_mvnImm_run : ends (start .v5 .little .unsupported 0x0 0x0 [] [] 0xE3F00000)
    [(0x0, 0xFFFFFFFF)] 0x8004 0x80000000 [] = true := by
  decide

/-- 95_test_vectors.md: `MVNS r0, r1` E1F00001; r1=0xFFFFFFFF; flags NC: r0=0x0; flags ZC. -/
theorem test_mvnImmShift_run : ends (start .v5 .little .unsupported 0xA0000000 0x0 [(1, 0xFFFFFFFF)] [] 0xE1F00001)
    [(0x0, 0x0)] 0x8004 0x60000000 [] = true := by
  decide

/-- 95_test_vectors.md: `MOV pc, r1` E1A0F001; r1=0x9002; flags -: Unpredictable(MisalignedPC). -/
theorem test_movImmShift_stop : stops (start .v5 .little .unsupported 0x0 0x0 [(1, 0x9002)] [] 0xE1A0F001)
    (.unpredictable .misalignedPC) [] = true := by
  decide

/-- 95_test_vectors.md: `MUL r0, r1, r2` E0000291; r1=0x6, r2=0x7; flags -: r0=0x2A; flags -. -/
theorem test_mul_run : ends (start .v5 .little .unsupported 0x0 0x0 [(1, 0x6), (2, 0x7)] [] 0xE0000291)
    [(0x0, 0x2A)] 0x8004 0x0 [] = true := by
  decide

/-- 95_test_vectors.md: `MLA r0, r1, r2, r3` E0203291; r1=0xFFFFFFFF, r2=0xFFFFFFFF, r3=0xFFFFFFFF; flags -: r0=0x0;
flags -. -/
theorem test_mla_run : ends (start .v5 .little .unsupported 0x0 0x0 [(1, 0xFFFFFFFF), (2, 0xFFFFFFFF), (3, 0xFFFFFFFF)] [] 0xE0203291)
    [(0x0, 0x0)] 0x8004 0x0 [] = true := by
  decide

/-- 95_test_vectors.md: `UMULL r0, r1, r2, r3` E0810392; r2=0x80000000, r3=0x2; flags -: r0=0x0, r1=0x1; flags -. -/
theorem test_umull_run : ends (start .v5 .little .unsupported 0x0 0x0 [(2, 0x80000000), (3, 0x2)] [] 0xE0810392)
    [(0x0, 0x0), (0x1, 0x1)] 0x8004 0x0 [] = true := by
  decide

/-- 95_test_vectors.md: `UMLAL r0, r1, r2, r3` E0A10392; r0=0xFFFFFFFF, r1=0x0, r2=0x1, r3=0x1; flags -: r0=0x0,
r1=0x1; flags -. -/
theorem test_umlal_run : ends (start .v5 .little .unsupported 0x0 0x0 [(0, 0xFFFFFFFF), (1, 0x0), (2, 0x1), (3, 0x1)] [] 0xE0A10392)
    [(0x0, 0x0), (0x1, 0x1)] 0x8004 0x0 [] = true := by
  decide

/-- 95_test_vectors.md: `SMULL r0, r1, r2, r3` E0C10392; r2=0x7FFFFFFF, r3=0x7FFFFFFF; flags -: r0=0x1, r1=0x3FFFFFFF;
flags -. -/
theorem test_smull_run : ends (start .v5 .little .unsupported 0x0 0x0 [(2, 0x7FFFFFFF), (3, 0x7FFFFFFF)] [] 0xE0C10392)
    [(0x0, 0x1), (0x1, 0x3FFFFFFF)] 0x8004 0x0 [] = true := by
  decide

/-- 95_test_vectors.md: `SMLAL r0, r1, r2, r3` E0E10392; r0=0x0, r1=0x0, r2=0xFFFFFFFF, r3=0x1; flags -:
r0=0xFFFFFFFF, r1=0xFFFFFFFF; flags -. -/
theorem test_smlal_run : ends (start .v5 .little .unsupported 0x0 0x0 [(0, 0x0), (1, 0x0), (2, 0xFFFFFFFF), (3, 0x1)] [] 0xE0E10392)
    [(0x0, 0xFFFFFFFF), (0x1, 0xFFFFFFFF)] 0x8004 0x0 [] = true := by
  decide

/-- 95_test_vectors.md: `MUL r0, r0, r0` E0000090; r0=0x3; flags -: Unpredictable(MulOverlap). -/
theorem test_mul_stop : stops (start .v5 .little .unsupported 0x0 0x0 [(0, 0x3)] [] 0xE0000090)
    (.unpredictable .mulOverlap) [] = true := by
  decide

/-- 95_test_vectors.md: `UMULL r1, r1, r2, r3` E0811392; r2=0x1, r3=0x1; flags -: Unpredictable(MulOverlap). -/
theorem test_umull_stop : stops (start .v5 .little .unsupported 0x0 0x0 [(2, 0x1), (3, 0x1)] [] 0xE0811392)
    (.unpredictable .mulOverlap) [] = true := by
  decide

/-- 95_test_vectors.md: `SMLATT r0, r1, r2, r3` E10032E1; r1 = 0x00020000, r2 = 0xFFFF0000, r3 = 10: r0 = 8 (2 x -1 +
10), Q unchanged. -/
theorem test_smlaxy_run : ends (start .v5 .little .unsupported 0x0 0x0 [(1, 0x20000), (2, 0xFFFF0000), (3, 0xA)] [] 0xE10032E1)
    [(0x0, 0x8)] 0x8004 0x0 [] = true := by
  decide

/-- 95_test_vectors.md: `SMULBT r0, r1, r2` E16002C1; r1 = 0x0000FFFE, r2 = 0x00030000: r0 = 0xFFFFFFFA (-2 x 3). -/
theorem test_smulxy_run : ends (start .v5 .little .unsupported 0x0 0x0 [(1, 0xFFFE), (2, 0x30000)] [] 0xE16002C1)
    [(0x0, 0xFFFFFFFA)] 0x8004 0x0 [] = true := by
  decide

/-- 95_test_vectors.md: `SMULWT r0, r1, r2` E12002E1; r1 = 0xFFFFFFFF, r2 = 0x00010000: r0 = 0xFFFFFFFF (floor(-1 x 1
/ 2^16) = -1). -/
theorem test_smulwy_run : ends (start .v5 .little .unsupported 0x0 0x0 [(1, 0xFFFFFFFF), (2, 0x10000)] [] 0xE12002E1)
    [(0x0, 0xFFFFFFFF)] 0x8004 0x0 [] = true := by
  decide

/-- 95_test_vectors.md: `SMLALBB r0, r1, r2, r3` E1410382; r0 = 0xFFFFFFFF, r1 = 0, r2 = 1, r3 = 1: r0 = 0, r1 = 1
(the 64-bit sum carries). -/
theorem test_smlalxy_run : ends (start .v5 .little .unsupported 0x0 0x0 [(0, 0xFFFFFFFF), (1, 0x0), (2, 0x1), (3, 0x1)] [] 0xE1410382)
    [(0x0, 0x0), (0x1, 0x1)] 0x8004 0x0 [] = true := by
  decide

/-- 95_test_vectors.md: `LDR r0, [r1]` E5910000; r1=0x1000, [0x1000]=0x11223344, [0x1004]=0x80FF7F01; flags -:
r0=0x11223344; flags -. -/
theorem test_ldrImm_run : ends (start .v5 .little .unsupported 0x0 0x0 [(1, 0x1000)] [(0x1000, 0x11223344), (0x1004, 0x80FF7F01)] 0xE5910000)
    [(0x0, 0x11223344)] 0x8004 0x0 [] = true := by
  decide

/-- 95_test_vectors.md: `LDR r0, [r1], #-4` E4110004; r1=0x1004, [0x1000]=0x11223344, [0x1004]=0x80FF7F01; flags -:
r0=0x80FF7F01, r1=0x1000; flags -. -/
theorem test_ldrImmPost_run : ends (start .v5 .little .unsupported 0x0 0x0 [(1, 0x1004)] [(0x1000, 0x11223344), (0x1004, 0x80FF7F01)] 0xE4110004)
    [(0x0, 0x80FF7F01), (0x1, 0x1000)] 0x8004 0x0 [] = true := by
  decide

/-- 95_test_vectors.md: `LDR r0, [r1, r2, LSL #2]` E7910102; r1=0xFFC, r2=0x2, [0x1000]=0x11223344,
[0x1004]=0x80FF7F01; flags -: r0=0x80FF7F01; flags -. -/
theorem test_ldrReg_run : ends (start .v5 .little .unsupported 0x0 0x0 [(1, 0xFFC), (2, 0x2)] [(0x1000, 0x11223344), (0x1004, 0x80FF7F01)] 0xE7910102)
    [(0x0, 0x80FF7F01)] 0x8004 0x0 [] = true := by
  decide

/-- 95_test_vectors.md: `LDR r0, [pc, #0]!` E5BF0000; flags -: Unpredictable(WritebackPC). -/
theorem test_ldrImm_stop : stops (start .v5 .little .unsupported 0x0 0x0 [] [] 0xE5BF0000)
    (.unpredictable .writebackPC) [] = true := by
  decide

/-- 95_test_vectors.md: `STR pc, [r1]` E581F000; r1=0x1000; flags -: [0x1000]=0x00008008; flags -. -/
theorem test_strImm_run : ends (start .v5 .little .unsupported 0x0 0x0 [(1, 0x1000)] [] 0xE581F000)
    [] 0x8004 0x0 [(0x1000, 0x8008)] = true := by
  decide

/-- 95_test_vectors.md: `STR r0, [r1], #4` E4810004; r0=0x5, r1=0x1000; flags -: r1=0x1004, [0x1000]=0x00000005; flags
-. -/
theorem test_strImmPost_run : ends (start .v5 .little .unsupported 0x0 0x0 [(0, 0x5), (1, 0x1000)] [] 0xE4810004)
    [(0x1, 0x1004)] 0x8004 0x0 [(0x1000, 0x5)] = true := by
  decide

/-- 95_test_vectors.md: `LDRB r0, [r1]` E5D10000; r1=0x1000, [0x1000]=0x11223344, [0x1004]=0x80FF7F01; flags -:
r0=0x44; flags -. -/
theorem test_ldrbImm_run : ends (start .v5 .little .unsupported 0x0 0x0 [(1, 0x1000)] [(0x1000, 0x11223344), (0x1004, 0x80FF7F01)] 0xE5D10000)
    [(0x0, 0x44)] 0x8004 0x0 [] = true := by
  decide

/-- 95_test_vectors.md: `STRB r0, [r1, #1]` E5C10001; r0=0x1AA, r1=0x1000, [0x1000]=0x11223344, [0x1004]=0x80FF7F01;
flags -: [0x1000]=0x1122AA44; flags -. -/
theorem test_strbImm_run : ends (start .v5 .little .unsupported 0x0 0x0 [(0, 0x1AA), (1, 0x1000)] [(0x1000, 0x11223344), (0x1004, 0x80FF7F01)] 0xE5C10001)
    [] 0x8004 0x0 [(0x1000, 0x1122AA44)] = true := by
  decide

/-- 95_test_vectors.md: `LDRH r0, [r1]` E1D100B0; r1=0x1000, [0x1000]=0x11223344, [0x1004]=0x80FF7F01; flags -:
r0=0x3344; flags -. -/
theorem test_ldrhImm_run : ends (start .v5 .little .unsupported 0x0 0x0 [(1, 0x1000)] [(0x1000, 0x11223344), (0x1004, 0x80FF7F01)] 0xE1D100B0)
    [(0x0, 0x3344)] 0x8004 0x0 [] = true := by
  decide

/-- 95_test_vectors.md: `LDRSH r0, [r1, #4]` E1D100F4; r1=0x1000, [0x1000]=0x11223344, [0x1004]=0x80FF7F01; flags -:
r0=0x7F01; flags -. -/
theorem test_ldrshImm_run : ends (start .v5 .little .unsupported 0x0 0x0 [(1, 0x1000)] [(0x1000, 0x11223344), (0x1004, 0x80FF7F01)] 0xE1D100F4)
    [(0x0, 0x7F01)] 0x8004 0x0 [] = true := by
  decide

/-- 95_test_vectors.md: `LDRSB r0, [r1, #4]` E1D100D4; r1=0x1000, [0x1000]=0x11223344, [0x1004]=0x80FF7F01; flags -:
r0=0x1; flags -. -/
theorem test_ldrsbImm_run : ends (start .v5 .little .unsupported 0x0 0x0 [(1, 0x1000)] [(0x1000, 0x11223344), (0x1004, 0x80FF7F01)] 0xE1D100D4)
    [(0x0, 0x1)] 0x8004 0x0 [] = true := by
  decide

/-- 95_test_vectors.md: `STRH r0, [r1, #2]` E1C100B2; r0=0x12345678, r1=0x1000, [0x1000]=0x11223344,
[0x1004]=0x80FF7F01; flags -: [0x1000]=0x56783344; flags -. -/
theorem test_strhImm_run : ends (start .v5 .little .unsupported 0x0 0x0 [(0, 0x12345678), (1, 0x1000)] [(0x1000, 0x11223344), (0x1004, 0x80FF7F01)] 0xE1C100B2)
    [] 0x8004 0x0 [(0x1000, 0x56783344)] = true := by
  decide

/-- 95_test_vectors.md: `LDRH r0, [r1, r2]` E19100B2; r1=0x1000, r2=0x4, [0x1000]=0x11223344, [0x1004]=0x80FF7F01;
flags -: r0=0x7F01; flags -. -/
theorem test_ldrhReg_run : ends (start .v5 .little .unsupported 0x0 0x0 [(1, 0x1000), (2, 0x4)] [(0x1000, 0x11223344), (0x1004, 0x80FF7F01)] 0xE19100B2)
    [(0x0, 0x7F01)] 0x8004 0x0 [] = true := by
  decide

/-- 95_test_vectors.md: `LDRD r2, [r1]` E1C120D0; r1=0x1000, [0x1000]=0x11223344, [0x1004]=0x80FF7F01; flags -:
r2=0x11223344, r3=0x80FF7F01; flags -. -/
theorem test_ldrdImm_run : ends (start .v5 .little .unsupported 0x0 0x0 [(1, 0x1000)] [(0x1000, 0x11223344), (0x1004, 0x80FF7F01)] 0xE1C120D0)
    [(0x2, 0x11223344), (0x3, 0x80FF7F01)] 0x8004 0x0 [] = true := by
  decide

/-- 95_test_vectors.md: `STRD r2, [r1]` E1C120F0; r1=0x1008, r2=0x1, r3=0x2; flags -: [0x1008]=0x00000001,
[0x100C]=0x00000002; flags -. -/
theorem test_strdImm_run : ends (start .v5 .little .unsupported 0x0 0x0 [(1, 0x1008), (2, 0x1), (3, 0x2)] [] 0xE1C120F0)
    [] 0x8004 0x0 [(0x1008, 0x1), (0x100C, 0x2)] = true := by
  decide

/-- 95_test_vectors.md: `SWP r0, r2, [r1]` E1010092; r1=0x1000, r2=0x7, [0x1000]=0x11223344, [0x1004]=0x80FF7F01;
flags -: r0=0x11223344, [0x1000]=0x00000007; flags -. -/
theorem test_swp_run : ends (start .v5 .little .unsupported 0x0 0x0 [(1, 0x1000), (2, 0x7)] [(0x1000, 0x11223344), (0x1004, 0x80FF7F01)] 0xE1010092)
    [(0x0, 0x11223344)] 0x8004 0x0 [(0x1000, 0x7)] = true := by
  decide

/-- 95_test_vectors.md: `SWPB r0, r2, [r1]` E1410092; r1=0x1001, r2=0x1FF, [0x1000]=0x11223344, [0x1004]=0x80FF7F01;
flags -: r0=0x33, [0x1000]=0x1122FF44; flags -. -/
theorem test_swpb_run : ends (start .v5 .little .unsupported 0x0 0x0 [(1, 0x1001), (2, 0x1FF)] [(0x1000, 0x11223344), (0x1004, 0x80FF7F01)] 0xE1410092)
    [(0x0, 0x33)] 0x8004 0x0 [(0x1000, 0x1122FF44)] = true := by
  decide

/-- 95_test_vectors.md: `SWP r1, r1, [r1]` E1011091; r1=0x1000, [0x1000]=0x11223344, [0x1004]=0x80FF7F01; flags -:
Unpredictable(SwapOverlap). -/
theorem test_swp_stop : stops (start .v5 .little .unsupported 0x0 0x0 [(1, 0x1000)] [(0x1000, 0x11223344), (0x1004, 0x80FF7F01)] 0xE1011091)
    (.unpredictable .swapOverlap) [] = true := by
  decide

/-- 95_test_vectors.md: `LDR r0, [r1, r1]!` E7B10001; r1=0x1000, [0x1000]=0x11223344, [0x1004]=0x80FF7F01; flags -:
Unpredictable(LSOverlap). -/
theorem test_ldrReg_stop : stops (start .v5 .little .unsupported 0x0 0x0 [(1, 0x1000)] [(0x1000, 0x11223344), (0x1004, 0x80FF7F01)] 0xE7B10001)
    (.unpredictable .lsOverlap) [] = true := by
  decide

/-- 95_test_vectors.md: `LDRB pc, [pc]` E5DFF000; [0x1000]=0x11223344, [0x1004]=0x80FF7F01; flags -:
Unpredictable(PCDestination). -/
theorem test_ldrbImm_stop : stops (start .v5 .little .unsupported 0x0 0x0 [] [(0x1000, 0x11223344), (0x1004, 0x80FF7F01)] 0xE5DFF000)
    (.unpredictable .pcDestination) [] = true := by
  decide

/-- 95_test_vectors.md: `LDRH r0, [r1], #2 with W = 1` E0F100B2; r1=0x1000, [0x1000]=0x11223344, [0x1004]=0x80FF7F01;
flags -: Unpredictable(PostIndexWriteback). -/
theorem test_ldrhImm_stop : stops (start .v5 .little .unsupported 0x0 0x0 [(1, 0x1000)] [(0x1000, 0x11223344), (0x1004, 0x80FF7F01)] 0xE0F100B2)
    (.unpredictable .postIndexWriteback) [] = true := by
  decide

/-- 95_test_vectors.md: `LDRD r3, [r1]` E1C130D0; r1=0x1000, [0x1000]=0x11223344, [0x1004]=0x80FF7F01; flags -:
Unpredictable(DoubleRegOdd). -/
theorem test_ldrdImm_stop : stops (start .v5 .little .unsupported 0x0 0x0 [(1, 0x1000)] [(0x1000, 0x11223344), (0x1004, 0x80FF7F01)] 0xE1C130D0)
    (.unpredictable .doubleRegOdd) [] = true := by
  decide

/-- 95_test_vectors.md: `STRD r2, [r1] on v4` E1C120F0; r1=0x1000, [0x1000]=0x11223344, [0x1004]=0x80FF7F01; flags -;
v4 little: Unpredictable(ExtraLoadStoreV4). -/
theorem test_unpredLsx11_stop : stops (start .v4 .little .unsupported 0x0 0x0 [(1, 0x1000)] [(0x1000, 0x11223344), (0x1004, 0x80FF7F01)] 0xE1C120F0)
    (.unpredictable .extraLoadStoreV4) [] = true := by
  decide

/-- 95_test_vectors.md: `LDMIA r0!, (r1-r3)` E8B0000E; r0=0x1000, [0x1000]=0x00000001, [0x1004]=0x00000002,
[0x1008]=0x00000003; flags -: r0=0x100C, r1=0x1, r2=0x2, r3=0x3; flags -. -/
theorem test_ldm_run : ends (start .v5 .little .unsupported 0x0 0x0 [(0, 0x1000)] [(0x1000, 0x1), (0x1004, 0x2), (0x1008, 0x3)] 0xE8B0000E)
    [(0x0, 0x100C), (0x1, 0x1), (0x2, 0x2), (0x3, 0x3)] 0x8004 0x0 [] = true := by
  decide

/-- 95_test_vectors.md: `LDMDB r1!, (r1-r3)` E931000E; r1=0x100C, [0x1000]=0x00000001, [0x1004]=0x00000002,
[0x1008]=0x00000003; flags -: Unpredictable(LSOverlap). -/
theorem test_ldm_stop : stops (start .v5 .little .unsupported 0x0 0x0 [(1, 0x100C)] [(0x1000, 0x1), (0x1004, 0x2), (0x1008, 0x3)] 0xE931000E)
    (.unpredictable .lsOverlap) [] = true := by
  decide

/-- 95_test_vectors.md: `STMDB sp!, (r0, r1, lr)` E92D4003; r0=0x1, r1=0x2, r13=0x2000, r14=0x9000; flags -:
r13=0x1FF4, [0x1FF4]=0x00000001, [0x1FF8]=0x00000002, [0x1FFC]=0x00009000; flags -. -/
theorem test_stm_run : ends (start .v5 .little .unsupported 0x0 0x0 [(0, 0x1), (1, 0x2), (13, 0x2000), (14, 0x9000)] [] 0xE92D4003)
    [(0xD, 0x1FF4)] 0x8004 0x0 [(0x1FF4, 0x1), (0x1FF8, 0x2), (0x1FFC, 0x9000)] = true := by
  decide

/-- 95_test_vectors.md: `STMIA r2!, (r1-r3)` E8A2000E; r1=0xA, r2=0x1000, r3=0xC; flags -: Unpredictable(LSOverlap).
-/
theorem test_stm_stop : stops (start .v5 .little .unsupported 0x0 0x0 [(1, 0xA), (2, 0x1000), (3, 0xC)] [] 0xE8A2000E)
    (.unpredictable .lsOverlap) [] = true := by
  decide

/-- 95_test_vectors.md: `B .` EAFFFFFE; flags -: next PC=0x8000; flags -. -/
theorem test_b_run : ends (start .v5 .little .unsupported 0x0 0x0 [] [] 0xEAFFFFFE)
    [] 0x8000 0x0 [] = true := by
  decide

/-- 95_test_vectors.md: `BL +0x48` EB000010; r14=0x1234; flags -: r14=0x8004, next PC=0x8048; flags -. -/
theorem test_bl_run : ends (start .v5 .little .unsupported 0x0 0x0 [(14, 0x1234)] [] 0xEB000010)
    [(0xE, 0x8004)] 0x8048 0x0 [] = true := by
  decide

/-- 95_test_vectors.md: `BX r1` E12FFF11; r1=0x9000; flags -: next PC=0x9000; flags -. -/
theorem test_bx_run : ends (start .v5 .little .unsupported 0x0 0x0 [(1, 0x9000)] [] 0xE12FFF11)
    [] 0x9000 0x0 [] = true := by
  decide

/-- 95_test_vectors.md: `BX r1` E12FFF11; r1=0x9001; flags -: Unsupported(ThumbState, 0x9001). -/
theorem test_bx_stop : stops (start .v5 .little .unsupported 0x0 0x0 [(1, 0x9001)] [] 0xE12FFF11)
    (.unsupported (.thumbState 0x9001#32)) [] = true := by
  decide

/-- 95_test_vectors.md: `BLX r1` E12FFF31; r1=0x9000; flags -: r14=0x8004, next PC=0x9000; flags -. -/
theorem test_blxReg_run : ends (start .v5 .little .unsupported 0x0 0x0 [(1, 0x9000)] [] 0xE12FFF31)
    [(0xE, 0x8004)] 0x9000 0x0 [] = true := by
  decide

/-- 95_test_vectors.md: `BLX r1 on v4` E12FFF31; r1=0x9000; flags -; v4 little: Unsupported(Undefined, 0xE12FFF31). -/
theorem test_undefMisc_stop : stops (start .v4 .little .unsupported 0x0 0x0 [(1, 0x9000)] [] 0xE12FFF31)
    (.unsupported (.undefined 0xE12FFF31#32)) [] = true := by
  decide

/-- 95_test_vectors.md: `BLX #+8` FA000000; flags -: Unsupported(ThumbState, 0x8008). -/
theorem test_blxImm_stop : stops (start .v5 .little .unsupported 0x0 0x0 [] [] 0xFA000000)
    (.unsupported (.thumbState 0x8008#32)) [] = true := by
  decide

/-- 95_test_vectors.md: `MRS r0, CPSR` E10F0000; flags NZ: r0=0xC0000000; flags NZ. -/
theorem test_mrs_run : ends (start .v5 .little .unsupported 0xC0000000 0x0 [] [] 0xE10F0000)
    [(0x0, 0xC0000000)] 0x8004 0xC0000000 [] = true := by
  decide

/-- 95_test_vectors.md: `MRS r0, SPSR` E14F0000; flags -; mode 0x1F: Unpredictable(NoSPSR). -/
theorem test_mrs_stop : stops (start .v5 .little .unsupported 0x1F 0x0 [] [] 0xE14F0000)
    (.unpredictable .noSPSR) [] = true := by
  decide

/-- 95_test_vectors.md: `MSR CPSR_c, #0xD3` E321F0D3; r13=0x100; flags -: r13=0x0; flags -; CPSR=0x000000D3. -/
theorem test_msrImm_run : ends (start .v5 .little .unsupported 0x0 0x0 [(13, 0x100)] [] 0xE321F0D3)
    [(0xD, 0x0)] 0x8004 0xD3 [] = true := by
  decide

/-- 95_test_vectors.md: `MSR CPSR_c, #0x00` E321F000; flags -; mode 0x13: Unpredictable(InvalidMode). -/
theorem test_msrImm_stop : stops (start .v5 .little .unsupported 0x13 0x0 [] [] 0xE321F000)
    (.unpredictable .invalidMode) [] = true := by
  decide

/-- 95_test_vectors.md: `MSR CPSR_fsxc, r1` E12FF001; r1=0xFFFFFFDF; flags -; mode 0x13: no change; flags NZCVQ;
CPSR=0xF80000DF. -/
theorem test_msrReg_run : ends (start .v5 .little .unsupported 0x13 0x0 [(1, 0xFFFFFFDF)] [] 0xE12FF001)
    [] 0x8004 0xF80000DF [] = true := by
  decide

/-- 95_test_vectors.md: `MSR SPSR_fc, r1` E169F001; r1=0x600000D0; flags -; mode 0x10: Unpredictable(NoSPSR). -/
theorem test_msrReg_stop : stops (start .v5 .little .unsupported 0x10 0x0 [(1, 0x600000D0)] [] 0xE169F001)
    (.unpredictable .noSPSR) [] = true := by
  decide

/-- 95_test_vectors.md: `CLZ r0, r1` E16F0F11; r1=0x1; flags -: r0=0x1F; flags -. -/
theorem test_clz_run : ends (start .v5 .little .unsupported 0x0 0x0 [(1, 0x1)] [] 0xE16F0F11)
    [(0x0, 0x1F)] 0x8004 0x0 [] = true := by
  decide

/-- 95_test_vectors.md: `CLZ pc, r1` E16FFF11; r1=0x1; flags -: Unpredictable(PCOperand). -/
theorem test_clz_stop : stops (start .v5 .little .unsupported 0x0 0x0 [(1, 0x1)] [] 0xE16FFF11)
    (.unpredictable .pcOperand) [] = true := by
  decide

/-- 95_test_vectors.md: `QADD r0, r1, r2` E1020051; r1=0x2, r2=0x3; flags -: r0=0x5; flags -. -/
theorem test_qadd_run : ends (start .v5 .little .unsupported 0x0 0x0 [(1, 0x2), (2, 0x3)] [] 0xE1020051)
    [(0x0, 0x5)] 0x8004 0x0 [] = true := by
  decide

/-- 95_test_vectors.md: `QSUB r0, r1, r2` E1220051; r1=0x7FFFFFFF, r2=0xFFFFFFFF; flags -: r0=0x7FFFFFFF; flags Q;
CPSR=0x08000000. -/
theorem test_qsub_run : ends (start .v5 .little .unsupported 0x0 0x0 [(1, 0x7FFFFFFF), (2, 0xFFFFFFFF)] [] 0xE1220051)
    [(0x0, 0x7FFFFFFF)] 0x8004 0x8000000 [] = true := by
  decide

/-- 95_test_vectors.md: `QDADD r0, r1, r2` E1420051; r1=0x1, r2=0x20000000; flags -: r0=0x40000001; flags -. -/
theorem test_qdadd_run : ends (start .v5 .little .unsupported 0x0 0x0 [(1, 0x1), (2, 0x20000000)] [] 0xE1420051)
    [(0x0, 0x40000001)] 0x8004 0x0 [] = true := by
  decide

/-- 95_test_vectors.md: `QDSUB r0, r1, r2` E1620051; r1=0x7FFFFFFF, r2=0xBFFFFFFF; flags -: r0=0x7FFFFFFF; flags Q;
CPSR=0x08000000. -/
theorem test_qdsub_run : ends (start .v5 .little .unsupported 0x0 0x0 [(1, 0x7FFFFFFF), (2, 0xBFFFFFFF)] [] 0xE1620051)
    [(0x0, 0x7FFFFFFF)] 0x8004 0x8000000 [] = true := by
  decide

/-- 95_test_vectors.md: `SWI #0x11` EF000011; flags -: Unsupported(SoftwareInterrupt, 0x11). -/
theorem test_swi_stop : stops (start .v5 .little .unsupported 0x0 0x0 [] [] 0xEF000011)
    (.unsupported (.softwareInterrupt 0x11#24)) [] = true := by
  decide

/-- 95_test_vectors.md: `SWINE #0x11` 1F000011; flags Z: no change; flags Z. -/
theorem test_swi_run : ends (start .v5 .little .unsupported 0x40000000 0x0 [] [] 0x1F000011)
    [] 0x8004 0x40000000 [] = true := by
  decide

/-- 95_test_vectors.md: `MCR p15, 0, r0, c1, c0, 0` EE010F10; flags -: Unsupported(Coprocessor, 0xF). -/
theorem test_mcr_stop : stops (start .v5 .little .unsupported 0x0 0x0 [] [] 0xEE010F10)
    (.unsupported (.coprocessor 15#4)) [] = true := by
  decide

/-- 95_test_vectors.md: `LDC p1, c0, [r1, #0]` ED910100; r1=0x1000; flags -: Unsupported(Coprocessor, 0x1). -/
theorem test_ldcPre_stop : stops (start .v5 .little .unsupported 0x0 0x0 [(1, 0x1000)] [] 0xED910100)
    (.unsupported (.coprocessor 1#4)) [] = true := by
  decide

/-- 95_test_vectors.md: `CDP2 p0, ... (v5)` FE000000; flags -: Unsupported(Coprocessor, 0x0). -/
theorem test_cdp2_stop : stops (start .v5 .little .unsupported 0x0 0x0 [] [] 0xFE000000)
    (.unsupported (.coprocessor 0#4)) [] = true := by
  decide

/-- 95_test_vectors.md: `UNDEFINED (class 011, bit 4)` E7F000F0; flags -: Unsupported(Undefined, 0xE7F000F0). -/
theorem test_undefMedia_stop : stops (start .v5 .little .unsupported 0x0 0x0 [] [] 0xE7F000F0)
    (.unsupported (.undefined 0xE7F000F0#32)) [] = true := by
  decide

/-- 95_test_vectors.md: `cond 1111 word` F0000000; flags -: Unpredictable(UnconditionalSpace). -/
theorem test_unpredUncond_stop : stops (start .v5 .little .unsupported 0x0 0x0 [] [] 0xF0000000)
    (.unpredictable .unconditionalSpace) [] = true := by
  decide

/-- 95_test_vectors.md: `cond 1111 word on v4` F0000000; flags -; v4 little: Unpredictable(NVCondition). -/
theorem test_nvV4_stop : stops (start .v4 .little .unsupported 0x0 0x0 [] [] 0xF0000000)
    (.unpredictable .nvCondition) [] = true := by
  decide

/-- 95_test_vectors.md: `PLD [r1, #4]` F5D1F004; r1=0x10000000; flags -: no change; flags -. -/
theorem test_pldImm_run : ends (start .v5 .little .unsupported 0x0 0x0 [(1, 0x10000000)] [] 0xF5D1F004)
    [] 0x8004 0x0 [] = true := by
  decide

/-- 95_test_vectors.md: `BKPT #0` E1200070; flags -: Unsupported(Breakpoint, 0x0). -/
theorem test_bkpt_stop : stops (start .v5 .little .unsupported 0x0 0x0 [] [] 0xE1200070)
    (.unsupported (.breakpoint 0x0#16)) [] = true := by
  decide

/-- 95_test_vectors.md: `BKPT with cond 0000 (EQ), Z = 0` 01200070; flags -: no change; flags -. -/
theorem test_bkpt_run : ends (start .v5 .little .unsupported 0x0 0x0 [] [] 0x01200070)
    [] 0x8004 0x0 [] = true := by
  decide

/-- 95_test_vectors.md: `UNDEFINED (from SVC)` E7F000F0; flags Z; mode 0x13; EXC_MODEL = architectural: r14=0x8004,
next PC=0x4; flags Z; CPSR=0x4000009B; SPSR_und=0x40000013. -/
theorem test_undefMedia_run : ends (start .v5 .little .architectural 0x40000013 0x0 [] [] 0xE7F000F0)
    [(0xE, 0x8004)] 0x4 0x4000009B [] = true := by
  decide

/-! ### Decoding -/

/-- One word per constructor, written from its row of opcode_table.json: the fixed bits, a condition, and a value of its
own in every field (SBZ and SBO fields 0). -/
theorem test_decode_dp_imm :
    decode .v4 0x02196A35#32 = .andImm .eq true 9#4 6#4 ⟨10#4, 0x35#8⟩ ∧
    decode .v4 0x32396A35#32 = .eorImm .cc true 9#4 6#4 ⟨10#4, 0x35#8⟩ ∧
    decode .v4 0x62596A35#32 = .subImm .vs true 9#4 6#4 ⟨10#4, 0x35#8⟩ ∧
    decode .v4 0x92796A35#32 = .rsbImm .ls true 9#4 6#4 ⟨10#4, 0x35#8⟩ ∧
    decode .v4 0xC2996A35#32 = .addImm .gt true 9#4 6#4 ⟨10#4, 0x35#8⟩ ∧
    decode .v4 0x02B96A35#32 = .adcImm .eq true 9#4 6#4 ⟨10#4, 0x35#8⟩ ∧
    decode .v4 0x32D96A35#32 = .sbcImm .cc true 9#4 6#4 ⟨10#4, 0x35#8⟩ ∧
    decode .v4 0x62F96A35#32 = .rscImm .vs true 9#4 6#4 ⟨10#4, 0x35#8⟩ ∧
    decode .v4 0x93196A35#32 = .tstImm .ls 9#4 6#4 ⟨10#4, 0x35#8⟩ ∧
    decode .v4 0xC3396A35#32 = .teqImm .gt 9#4 6#4 ⟨10#4, 0x35#8⟩ ∧
    decode .v4 0x03596A35#32 = .cmpImm .eq 9#4 6#4 ⟨10#4, 0x35#8⟩ ∧
    decode .v4 0x33796A35#32 = .cmnImm .cc 9#4 6#4 ⟨10#4, 0x35#8⟩ ∧
    decode .v4 0x63996A35#32 = .orrImm .vs true 9#4 6#4 ⟨10#4, 0x35#8⟩ ∧
    decode .v4 0x93B96A35#32 = .movImm .ls true 9#4 6#4 ⟨10#4, 0x35#8⟩ ∧
    decode .v4 0xC3D96A35#32 = .bicImm .gt true 9#4 6#4 ⟨10#4, 0x35#8⟩ ∧
    decode .v4 0x03F96A35#32 = .mvnImm .eq true 9#4 6#4 ⟨10#4, 0x35#8⟩ := by
  decide

/-- One word per constructor, written from its row of opcode_table.json: the fixed bits, a condition, and a value of its
own in every field (SBZ and SBO fields 0). -/
theorem test_decode_dp_immshift :
    decode .v4 0x10196985#32 = .andImmShift .ne true 9#4 6#4 ⟨19#5, .lsl, 5#4⟩ ∧
    decode .v4 0x403969A5#32 = .eorImmShift .mi true 9#4 6#4 ⟨19#5, .lsr, 5#4⟩ ∧
    decode .v4 0x705969C5#32 = .subImmShift .vc true 9#4 6#4 ⟨19#5, .asr, 5#4⟩ ∧
    decode .v4 0xA07969E5#32 = .rsbImmShift .ge true 9#4 6#4 ⟨19#5, .ror, 5#4⟩ ∧
    decode .v4 0xD0996985#32 = .addImmShift .le true 9#4 6#4 ⟨19#5, .lsl, 5#4⟩ ∧
    decode .v4 0x10B969A5#32 = .adcImmShift .ne true 9#4 6#4 ⟨19#5, .lsr, 5#4⟩ ∧
    decode .v4 0x40D969C5#32 = .sbcImmShift .mi true 9#4 6#4 ⟨19#5, .asr, 5#4⟩ ∧
    decode .v4 0x70F969E5#32 = .rscImmShift .vc true 9#4 6#4 ⟨19#5, .ror, 5#4⟩ ∧
    decode .v4 0xA1196985#32 = .tstImmShift .ge 9#4 6#4 ⟨19#5, .lsl, 5#4⟩ ∧
    decode .v4 0xD13969A5#32 = .teqImmShift .le 9#4 6#4 ⟨19#5, .lsr, 5#4⟩ ∧
    decode .v4 0x115969C5#32 = .cmpImmShift .ne 9#4 6#4 ⟨19#5, .asr, 5#4⟩ ∧
    decode .v4 0x417969E5#32 = .cmnImmShift .mi 9#4 6#4 ⟨19#5, .ror, 5#4⟩ ∧
    decode .v4 0x71996985#32 = .orrImmShift .vc true 9#4 6#4 ⟨19#5, .lsl, 5#4⟩ ∧
    decode .v4 0xA1B969A5#32 = .movImmShift .ge true 9#4 6#4 ⟨19#5, .lsr, 5#4⟩ ∧
    decode .v4 0xD1D969C5#32 = .bicImmShift .le true 9#4 6#4 ⟨19#5, .asr, 5#4⟩ ∧
    decode .v4 0x11F969E5#32 = .mvnImmShift .ne true 9#4 6#4 ⟨19#5, .ror, 5#4⟩ := by
  decide

/-- One word per constructor, written from its row of opcode_table.json: the fixed bits, a condition, and a value of its
own in every field (SBZ and SBO fields 0). -/
theorem test_decode_dp_regshift :
    decode .v4 0x20196C15#32 = .andRegShift .cs true 9#4 6#4 ⟨12#4, .lsl, 5#4⟩ ∧
    decode .v4 0x50396C35#32 = .eorRegShift .pl true 9#4 6#4 ⟨12#4, .lsr, 5#4⟩ ∧
    decode .v4 0x80596C55#32 = .subRegShift .hi true 9#4 6#4 ⟨12#4, .asr, 5#4⟩ ∧
    decode .v4 0xB0796C75#32 = .rsbRegShift .lt true 9#4 6#4 ⟨12#4, .ror, 5#4⟩ ∧
    decode .v4 0xE0996C15#32 = .addRegShift .al true 9#4 6#4 ⟨12#4, .lsl, 5#4⟩ ∧
    decode .v4 0x20B96C35#32 = .adcRegShift .cs true 9#4 6#4 ⟨12#4, .lsr, 5#4⟩ ∧
    decode .v4 0x50D96C55#32 = .sbcRegShift .pl true 9#4 6#4 ⟨12#4, .asr, 5#4⟩ ∧
    decode .v4 0x80F96C75#32 = .rscRegShift .hi true 9#4 6#4 ⟨12#4, .ror, 5#4⟩ ∧
    decode .v4 0xB1196C15#32 = .tstRegShift .lt 9#4 6#4 ⟨12#4, .lsl, 5#4⟩ ∧
    decode .v4 0xE1396C35#32 = .teqRegShift .al 9#4 6#4 ⟨12#4, .lsr, 5#4⟩ ∧
    decode .v4 0x21596C55#32 = .cmpRegShift .cs 9#4 6#4 ⟨12#4, .asr, 5#4⟩ ∧
    decode .v4 0x51796C75#32 = .cmnRegShift .pl 9#4 6#4 ⟨12#4, .ror, 5#4⟩ ∧
    decode .v4 0x81996C15#32 = .orrRegShift .hi true 9#4 6#4 ⟨12#4, .lsl, 5#4⟩ ∧
    decode .v4 0xB1B96C35#32 = .movRegShift .lt true 9#4 6#4 ⟨12#4, .lsr, 5#4⟩ ∧
    decode .v4 0xE1D96C55#32 = .bicRegShift .al true 9#4 6#4 ⟨12#4, .asr, 5#4⟩ ∧
    decode .v4 0x21F96C75#32 = .mvnRegShift .cs true 9#4 6#4 ⟨12#4, .ror, 5#4⟩ := by
  decide

/-- One word per constructor, written from its row of opcode_table.json: the fixed bits, a condition, and a value of its
own in every field (SBZ and SBO fields 0). -/
theorem test_decode_multiply :
    decode .v4 0x30160C95#32 = .mul .cc true 6#4 12#4 5#4 ∧
    decode .v4 0x40369C95#32 = .mla .mi true 6#4 9#4 12#4 5#4 ∧
    decode .v4 0x509B3C95#32 = .umull .pl true 11#4 3#4 12#4 5#4 ∧
    decode .v4 0x60BB3C95#32 = .umlal .vs true 11#4 3#4 12#4 5#4 ∧
    decode .v4 0x70DB3C95#32 = .smull .vc true 11#4 3#4 12#4 5#4 ∧
    decode .v4 0x80FB3C95#32 = .smlal .hi true 11#4 3#4 12#4 5#4 ∧
    decode .v5 0x91069CC5#32 = .smlaxy .ls 6#4 9#4 12#4 .top .bottom 5#4 ∧
    decode .v5 0xA1269CC5#32 = .smlawy .ge 6#4 9#4 12#4 .top 5#4 ∧
    decode .v5 0xB1260CE5#32 = .smulwy .lt 6#4 12#4 .top 5#4 ∧
    decode .v5 0xC14B3CC5#32 = .smlalxy .gt 11#4 3#4 12#4 .top .bottom 5#4 ∧
    decode .v5 0xD1660CC5#32 = .smulxy .le 6#4 12#4 .top .bottom 5#4 := by
  decide

/-- One word per constructor, written from its row of opcode_table.json: the fixed bits, a condition, and a value of its
own in every field (SBZ and SBO fields 0). -/
theorem test_decode_swap_extra_pld :
    decode .v4 0xE1096095#32 = .swp .al 9#4 6#4 5#4 ∧
    decode .v4 0x01496095#32 = .swpb .eq 9#4 6#4 5#4 ∧
    decode .v4 0x11696CB3#32 = .strhImm .ne true false true 9#4 6#4 0xC3#8 ∧
    decode .v4 0x212960B5#32 = .strhReg .cs true false true 9#4 6#4 5#4 ∧
    decode .v4 0x31796CB3#32 = .ldrhImm .cc true false true 9#4 6#4 0xC3#8 ∧
    decode .v4 0x413960B5#32 = .ldrhReg .mi true false true 9#4 6#4 5#4 ∧
    decode .v4 0x51796CD3#32 = .ldrsbImm .pl true false true 9#4 6#4 0xC3#8 ∧
    decode .v4 0x613960D5#32 = .ldrsbReg .vs true false true 9#4 6#4 5#4 ∧
    decode .v4 0x71796CF3#32 = .ldrshImm .vc true false true 9#4 6#4 0xC3#8 ∧
    decode .v4 0x813960F5#32 = .ldrshReg .hi true false true 9#4 6#4 5#4 ∧
    decode .v5 0x91696CD3#32 = .ldrdImm .ls true false true 9#4 6#4 0xC3#8 ∧
    decode .v5 0xA12960D5#32 = .ldrdReg .ge true false true 9#4 6#4 5#4 ∧
    decode .v5 0xB1696CF3#32 = .strdImm .lt true false true 9#4 6#4 0xC3#8 ∧
    decode .v5 0xC12960F5#32 = .strdReg .gt true false true 9#4 6#4 5#4 ∧
    decode .v4 0xD1696CD3#32 = .unpredLsx10 0xD1696CD3#32 ∧
    decode .v4 0xE1696CF3#32 = .unpredLsx11 0xE1696CF3#32 ∧
    decode .v5 0xF5590A5C#32 = .pldImm false 9#4 0xA5C#12 ∧
    decode .v5 0xF75909A5#32 = .pldReg false 9#4 ⟨19#5, .lsr, 5#4⟩ := by
  decide

/-- One word per constructor, written from its row of opcode_table.json: the fixed bits, a condition, and a value of its
own in every field (SBZ and SBO fields 0). -/
theorem test_decode_ls_imm :
    decode .v4 0x05396A5C#32 = .ldrImm .eq false true 9#4 6#4 0xA5C#12 ∧
    decode .v4 0x14196A5C#32 = .ldrImmPost .ne false 9#4 6#4 0xA5C#12 ∧
    decode .v4 0x44396A5C#32 = .ldrtImm .mi false 9#4 6#4 0xA5C#12 ∧
    decode .v4 0x65796A5C#32 = .ldrbImm .vs false true 9#4 6#4 0xA5C#12 ∧
    decode .v4 0x74596A5C#32 = .ldrbImmPost .vc false 9#4 6#4 0xA5C#12 ∧
    decode .v4 0xA4796A5C#32 = .ldrbtImm .ge false 9#4 6#4 0xA5C#12 ∧
    decode .v4 0xC5296A5C#32 = .strImm .gt false true 9#4 6#4 0xA5C#12 ∧
    decode .v4 0xD4096A5C#32 = .strImmPost .le false 9#4 6#4 0xA5C#12 ∧
    decode .v4 0x14296A5C#32 = .strtImm .ne false 9#4 6#4 0xA5C#12 ∧
    decode .v4 0x35696A5C#32 = .strbImm .cc false true 9#4 6#4 0xA5C#12 ∧
    decode .v4 0x44496A5C#32 = .strbImmPost .mi false 9#4 6#4 0xA5C#12 ∧
    decode .v4 0x74696A5C#32 = .strbtImm .vc false 9#4 6#4 0xA5C#12 := by
  decide

/-- One word per constructor, written from its row of opcode_table.json: the fixed bits, a condition, and a value of its
own in every field (SBZ and SBO fields 0). -/
theorem test_decode_ls_reg :
    decode .v4 0x273969A5#32 = .ldrReg .cs false true 9#4 6#4 ⟨19#5, .lsr, 5#4⟩ ∧
    decode .v4 0x361969C5#32 = .ldrRegPost .cc false 9#4 6#4 ⟨19#5, .asr, 5#4⟩ ∧
    decode .v4 0x563969C5#32 = .ldrtReg .pl false 9#4 6#4 ⟨19#5, .asr, 5#4⟩ ∧
    decode .v4 0x877969E5#32 = .ldrbReg .hi false true 9#4 6#4 ⟨19#5, .ror, 5#4⟩ ∧
    decode .v4 0x96596985#32 = .ldrbRegPost .ls false 9#4 6#4 ⟨19#5, .lsl, 5#4⟩ ∧
    decode .v4 0xB6796985#32 = .ldrbtReg .lt false 9#4 6#4 ⟨19#5, .lsl, 5#4⟩ ∧
    decode .v4 0xE72969A5#32 = .strReg .al false true 9#4 6#4 ⟨19#5, .lsr, 5#4⟩ ∧
    decode .v4 0x060969C5#32 = .strRegPost .eq false 9#4 6#4 ⟨19#5, .asr, 5#4⟩ ∧
    decode .v4 0x262969C5#32 = .strtReg .cs false 9#4 6#4 ⟨19#5, .asr, 5#4⟩ ∧
    decode .v4 0x576969E5#32 = .strbReg .pl false true 9#4 6#4 ⟨19#5, .ror, 5#4⟩ ∧
    decode .v4 0x66496985#32 = .strbRegPost .vs false 9#4 6#4 ⟨19#5, .lsl, 5#4⟩ ∧
    decode .v4 0x86696985#32 = .strbtReg .hi false 9#4 6#4 ⟨19#5, .lsl, 5#4⟩ := by
  decide

/-- One word per constructor, written from its row of opcode_table.json: the fixed bits, a condition, and a value of its
own in every field (SBZ and SBO fields 0). -/
theorem test_decode_block_branch :
    decode .v4 0xB93929A6#32 = .ldm .lt true false true 9#4 0x29A6#16 ∧
    decode .v4 0xC97929A6#32 = .ldmUser .gt true false true 9#4 0x29A6#15 ∧
    decode .v4 0xD979A9A6#32 = .ldmReturn .le true false true 9#4 0x29A6#15 ∧
    decode .v4 0xE92929A6#32 = .stm .al true false true 9#4 0x29A6#16 ∧
    decode .v4 0x096929A6#32 = .stmUser .eq true false true 9#4 0x29A6#16 ∧
    decode .v4 0x1AD12C3B#32 = .b .ne 0xD12C3B#24 ∧
    decode .v4 0x2BD12C3B#32 = .bl .cs 0xD12C3B#24 ∧
    decode .v4 0x31200015#32 = .bx .cc 5#4 ∧
    decode .v5 0xFBD12C3B#32 = .blxImm true 0xD12C3B#24 ∧
    decode .v5 0x51200035#32 = .blxReg .pl 5#4 := by
  decide

/-- One word per constructor, written from its row of opcode_table.json: the fixed bits, a condition, and a value of its
own in every field (SBZ and SBO fields 0). -/
theorem test_decode_status_misc_exception :
    decode .v4 0x61406000#32 = .mrs .vs .spsr 6#4 ∧
    decode .v4 0x73690A35#32 = .msrImm .vc .spsr 9#4 ⟨10#4, 0x35#8⟩ ∧
    decode .v4 0x81690005#32 = .msrReg .hi .spsr 9#4 5#4 ∧
    decode .v5 0x91606015#32 = .clz .ls 6#4 5#4 ∧
    decode .v5 0xA1096055#32 = .qadd .ge 9#4 6#4 5#4 ∧
    decode .v5 0xB1296055#32 = .qsub .lt 9#4 6#4 5#4 ∧
    decode .v5 0xC1496055#32 = .qdadd .gt 9#4 6#4 5#4 ∧
    decode .v5 0xD1696055#32 = .qdsub .le 9#4 6#4 5#4 ∧
    decode .v5 0xE129A376#32 = .bkpt .al 0x9A3#12 6#4 ∧
    decode .v4 0x0FB4D2E1#32 = .swi .eq 0xB4D2E1#24 := by
  decide

/-- One word per constructor, written from its row of opcode_table.json: the fixed bits, a condition, and a value of its
own in every field (SBZ and SBO fields 0). -/
theorem test_decode_coprocessor :
    decode .v4 0x1E596D6A#32 = .cdp .ne 5#4 9#4 6#4 13#4 3#3 10#4 ∧
    decode .v4 0x2EA96D7A#32 = .mcr .cs 5#3 9#4 6#4 13#4 3#3 10#4 ∧
    decode .v4 0x3EB96D7A#32 = .mrc .cc 5#3 9#4 6#4 13#4 3#3 10#4 ∧
    decode .v4 0x4D696D5A#32 = .stcV4 .mi true false true true 9#4 6#4 13#4 0x5A#8 ∧
    decode .v4 0x5D796D5A#32 = .ldcV4 .pl true false true true 9#4 6#4 13#4 0x5A#8 ∧
    decode .v5 0x6D696D5A#32 = .stcPre .vs false true true 9#4 6#4 13#4 0x5A#8 ∧
    decode .v5 0x7CE96D5A#32 = .stcPostUp .vc true true 9#4 6#4 13#4 0x5A#8 ∧
    decode .v5 0x8C296D5A#32 = .stcPostDown .hi true 9#4 6#4 13#4 0x5A#8 ∧
    decode .v5 0x9C696D5A#32 = .stcPostDownLong .ls 9#4 6#4 13#4 0x5A#8 ∧
    decode .v5 0xAD796D5A#32 = .ldcPre .ge false true true 9#4 6#4 13#4 0x5A#8 ∧
    decode .v5 0xBCF96D5A#32 = .ldcPostUp .lt true true 9#4 6#4 13#4 0x5A#8 ∧
    decode .v5 0xCC396D5A#32 = .ldcPostDown .gt true 9#4 6#4 13#4 0x5A#8 ∧
    decode .v5 0xDC796D5A#32 = .ldcPostDownLong .le 9#4 6#4 13#4 0x5A#8 ∧
    decode .v5 0xEC496DBA#32 = .mcrr .al 9#4 6#4 13#4 11#4 10#4 ∧
    decode .v5 0x0C596DBA#32 = .mrrc .eq 9#4 6#4 13#4 11#4 10#4 ∧
    decode .v5 0xFE596D6A#32 = .cdp2 5#4 9#4 6#4 13#4 3#3 10#4 ∧
    decode .v5 0xFEA96D7A#32 = .mcr2 5#3 9#4 6#4 13#4 3#3 10#4 ∧
    decode .v5 0xFEB96D7A#32 = .mrc2 5#3 9#4 6#4 13#4 3#3 10#4 ∧
    decode .v5 0xFD696D5A#32 = .stc2 true false true true 9#4 6#4 13#4 0x5A#8 ∧
    decode .v5 0xFD796D5A#32 = .ldc2 true false true true 9#4 6#4 13#4 0x5A#8 := by
  decide

/-- One word per constructor, written from its row of opcode_table.json: the fixed bits, a condition, and a value of its
own in every field (SBZ and SBO fields 0). -/
theorem test_decode_whole_words :
    decode .v4 0x66000010#32 = .undefMedia 0x66000010#32 ∧
    decode .v4 0x73000000#32 = .undefMsrImm 0x73000000#32 ∧
    decode .v4 0x80400090#32 = .undefMul 0x80400090#32 ∧
    decode .v4 0x91200090#32 = .undefSwap21 0x91200090#32 ∧
    decode .v4 0xA1100090#32 = .undefSwap20 0xA1100090#32 ∧
    decode .v4 0xB1800090#32 = .undefSwap23 0xB1800090#32 ∧
    decode .v4 0xC1000020#32 = .undefMisc 0xC1000020#32 ∧
    decode .v4 0xF0000000#32 = .nvV4 0xF0000000#32 ∧
    decode .v5 0xF0000000#32 = .unpredUncond 0xF0000000#32 := by
  decide

/-! ### Well-formedness: an ill-formed term for each check -/

/-- Rows of `v5` alone are no instructions of `v4` (R3, R163, R169). -/
theorem test_wellFormed_v5_only :
    [Instr.smlaxy .al 0#4 1#4 2#4 .top .top 3#4, .smlawy .al 0#4 1#4 2#4 .top 3#4, .smulwy .al 0#4 1#4 .top 2#4,
     .smlalxy .al 0#4 1#4 2#4 .top .top 3#4, .smulxy .al 0#4 1#4 .top .top 2#4,
     .ldrdImm .al true true false 0#4 2#4 0#8, .ldrdReg .al true true false 0#4 2#4 1#4,
     .strdImm .al true true false 0#4 2#4 0#8, .strdReg .al true true false 0#4 2#4 1#4,
     .pldImm true 0#4 0#12, .pldReg true 0#4 ⟨0#5, .lsl, 1#4⟩, .blxImm true 0#24, .blxReg .al 0#4, .clz .al 0#4 1#4,
     .qadd .al 0#4 1#4 2#4, .qsub .al 0#4 1#4 2#4, .qdadd .al 0#4 1#4 2#4, .qdsub .al 0#4 1#4 2#4,
     .bkpt .al 0#12 0#4].all (fun i => !i.wellFormed .v4 && i.wellFormed .v5) = true := by
  decide

/-- Coprocessor rows of one variant alone (R180, R596). -/
theorem test_wellFormed_coprocessor_rows :
    [Instr.stcPre .al true true true 0#4 1#4 2#4 0#8, .stcPostUp .al true true 0#4 1#4 2#4 0#8,
     .stcPostDown .al true 0#4 1#4 2#4 0#8, .stcPostDownLong .al 0#4 1#4 2#4 0#8,
     .ldcPre .al true true true 0#4 1#4 2#4 0#8, .ldcPostUp .al true true 0#4 1#4 2#4 0#8,
     .ldcPostDown .al true 0#4 1#4 2#4 0#8, .ldcPostDownLong .al 0#4 1#4 2#4 0#8, .mcrr .al 0#4 1#4 2#4 3#4 4#4,
     .mrrc .al 0#4 1#4 2#4 3#4 4#4, .cdp2 0#4 1#4 2#4 3#4 4#3 5#4, .mcr2 0#3 1#4 2#4 3#4 4#3 5#4,
     .mrc2 0#3 1#4 2#4 3#4 4#3 5#4, .stc2 true true true true 0#4 1#4 2#4 0#8,
     .ldc2 true true true true 0#4 1#4 2#4 0#8].all (fun i => !i.wellFormed .v4 && i.wellFormed .v5) = true ∧
    [Instr.stcV4 .al true true true true 0#4 1#4 2#4 0#8, .ldcV4 .al true true true true 0#4 1#4 2#4 0#8].all
      (fun i => !i.wellFormed .v5 && i.wellFormed .v4) = true := by
  decide

/-- A constructor that keeps its word refuses a word outside its row, or of the other space (R195, R456, R602, R603). -/
theorem test_wellFormed_whole_words :
    (Instr.unpredLsx10 0xE00000B0#32).wellFormed .v4 = false ∧ (Instr.unpredLsx10 0xE00000D0#32).wellFormed .v5 = false ∧
    (Instr.unpredLsx10 0xF00000D0#32).wellFormed .v4 = false ∧ (Instr.unpredLsx11 0xE00000D0#32).wellFormed .v4 = false ∧
    (Instr.unpredLsx11 0xE00000F0#32).wellFormed .v5 = false ∧ (Instr.undefMedia 0xE6000000#32).wellFormed .v5 = false ∧
    (Instr.undefMedia 0xF6000010#32).wellFormed .v5 = false ∧ (Instr.undefMsrImm 0xE3200000#32).wellFormed .v5 = false ∧
    (Instr.undefMul 0xE0000090#32).wellFormed .v5 = false ∧ (Instr.undefSwap21 0xE1000090#32).wellFormed .v5 = false ∧
    (Instr.undefSwap20 0xE1000090#32).wellFormed .v5 = false ∧ (Instr.undefSwap23 0xE1000090#32).wellFormed .v5 = false ∧
    (Instr.undefMisc 0xE10F0000#32).wellFormed .v5 = false ∧ (Instr.undefMisc 0xE16F0F11#32).wellFormed .v5 = false ∧
    (Instr.undefMisc 0xE16F0F11#32).wellFormed .v4 = true ∧ (Instr.nvV4 0xE0000000#32).wellFormed .v4 = false ∧
    (Instr.nvV4 0xF0000000#32).wellFormed .v5 = false ∧ (Instr.unpredUncond 0xFA000000#32).wellFormed .v5 = false ∧
    (Instr.unpredUncond 0xF0000000#32).wellFormed .v4 = false ∧ (Instr.unpredUncond 0xE0000000#32).wellFormed .v5 = false :=
  by decide

/-! ### Witnesses: concrete states and operands that meet the hypotheses of each obligation, for each clause -/

/-- A CPU of `v5` in SVC mode with the SPSR of USR mode, flags clear; r1 = 0x1000, r2 = 8, r3 = 5, r13 = 0x2000. -/
def w5 : State :=
  start .v5 .little .unsupported 0x13 0x10 [(1, 0x1000), (2, 8), (3, 5), (6, 0x5001), (13, 0x2000)] [(0x1000, 0x5002)] 0

/-- The same CPU as `v4`. -/
def w4 : State := w5.setCpu { w5.cpu with cfg := { w5.cpu.cfg with variant := .v4 } }

/-- The same with MISALIGNED_PC = align. -/
def wAlign : State := { w5 with params := { w5.params with misalignedPc := .align } }

/-- The same with EXC_MODEL = architectural. -/
def wArch : State := { w5 with params := { w5.params with excModel := .architectural } }

/-- The same in USR mode. -/
def wUser : State := w5.setCpu { w5.cpu with cpsr := 0x10#32 }

/-- `w5` with a delegate at [0x1000, 0x2000), raw memory to read at [0x3000, 0x4000) that cannot be written, and memory to
write at [0x4000, 0x5000) that cannot be read. -/
def wBus : State :=
  w5.setCpu { w5.cpu with bus :=
    { addressBits := 32, pageBits := 16
      readPages := [(0, [⟨0, 0x1000, 0, .invalid⟩, ⟨0x1000, 0x2000, 0x1000, .delegate 7⟩, ⟨0x2000, 0x4000, 0x2000, .raw 0x2000⟩,
        ⟨0x4000, 0x10000, 0, .invalid⟩])]
      writePages := [(0, [⟨0, 0x1000, 0, .invalid⟩, ⟨0x1000, 0x2000, 0x1000, .delegate 7⟩, ⟨0x2000, 0x3000, 0x2000, .raw 0x2000⟩,
        ⟨0x3000, 0x4000, 0, .invalid⟩, ⟨0x4000, 0x5000, 0x4000, .raw 0x4000⟩, ⟨0x5000, 0x10000, 0, .invalid⟩])] } }

/-- The answer of the delegate of `wBus` to the `k`-th draw. -/
def wAnswer (k : Nat) (a : Word) : Word := delegateAnswer 7 k a

/-- `wBus` after its delegate answered a read of `a`. -/
def wRead (a : Word) : State := { wBus with draws := 1, events := [.read .arm9 7 a (wAnswer 0 a)] }

/-- `w5` with the word at 0x8000 and the Clock at the turn of the ARM9. -/
def wTurn (word : Word) : State := w5.withNextWord word

theorem witness_DataProcessingLogical :
    DpOp.and.logical = true ∧ DpOp.and.testsOnly = false ∧ (14#4 : RegNo) ≠ 15#4 ∧
    dpLegal .and 15#4 14#4 (.imm ⟨15#4, 255#8⟩) = true ∧ dpLegal .orr 15#4 0#4 (.immShift ⟨31#5, .ror, 15#4⟩) = true ∧
    dpLegal .and 14#4 14#4 (.regShift ⟨14#4, .asr, 14#4⟩) = true ∧
    dpLegal .mov 15#4 14#4 (.regShift ⟨14#4, .lsl, 0#4⟩) = true := by decide

theorem witness_DataProcessingArithmetic :
    DpOp.rsc.logical = false ∧ DpOp.rsc.testsOnly = false ∧ (0#4 : RegNo) ≠ 15#4 ∧
    dpLegal .rsc 15#4 0#4 (.imm ⟨0#4, 0#8⟩) = true ∧ dpLegal .sub 15#4 0#4 (.immShift ⟨0#5, .lsr, 15#4⟩) = true ∧
    dpLegal .adc 14#4 0#4 (.regShift ⟨0#4, .lsl, 14#4⟩) = true := by decide

theorem witness_CompareAndTest :
    DpOp.tst.testsOnly = true ∧ DpOp.cmn.testsOnly = true ∧ dpLegal .tst 15#4 15#4 (.imm ⟨0#4, 0#8⟩) = true ∧
    dpLegal .cmp 14#4 15#4 (.regShift ⟨1#4, .lsr, 2#4⟩) = true := by decide

/-- ADD with r15 as Rd: 0x1000 + 0x10 is aligned, 0x1000 + 1 and 0x1000 + 3 are not. -/
theorem witness_DataProcessingBranch :
    DpOp.add.testsOnly = false ∧ dpLegal .add 1#4 15#4 (.imm ⟨0#4, 0x10#8⟩) = true ∧
    (DpOp.add.value (w5.reg 1#4) ((DpOperand.imm ⟨0#4, 0x10#8⟩).shifted w5).value false).toNat % 4 = 0 ∧
    (DpOp.add.value (w5.reg 1#4) ((DpOperand.imm ⟨0#4, 1#8⟩).shifted w5).value false).toNat % 4 ≠ 0 ∧
    (DpOp.add.value (w5.reg 1#4) ((DpOperand.imm ⟨0#4, 3#8⟩).shifted wAlign).value false).toNat % 4 ≠ 0 ∧
    w5.params.misalignedPc = .fault ∧ wAlign.params.misalignedPc = .align := by decide

/-- SUBS pc, r1 with 4 or 2, from SVC mode: back to USR mode; the SPSR with T = 1, and with the invalid mode 5. -/
theorem witness_DataProcessingReturn :
    let t := w5.setCpu { w5.cpu with spsr := 0x30#32 }
    let m := w5.setCpu { w5.cpu with spsr := 0x05#32 }
    DpOp.sub.testsOnly = false ∧ dpLegal .sub 1#4 15#4 (.imm ⟨0#4, 4#8⟩) = true ∧ hasSpsr w5.mode = true ∧
    DpOp.sub.value (w5.reg 1#4) ((DpOperand.imm ⟨0#4, 4#8⟩).shifted w5).value false = 0xFFC#32 ∧
    w5.returnTarget w5.cpu.spsr 0xFFC#32 = .ok 0xFFC#32 ∧
    w5.returnTarget w5.cpu.spsr 0xFFE#32 = .error (.unpredictable .misalignedPC) ∧
    wAlign.returnTarget wAlign.cpu.spsr 0xFFE#32 = .ok 0xFFC#32 ∧ hasSpsr t.mode = true ∧
    t.returnTarget t.cpu.spsr 0xFFC#32 = .error (.unsupported (.thumbState 0xFFC#32)) ∧
    m.returnTarget m.cpu.spsr 0xFFC#32 = .error (.unpredictable .invalidMode) := by
  refine ⟨?_, ?_, ?_, ?_, rfl, rfl, rfl, ?_, rfl, rfl⟩ <;> decide

theorem witness_MultiplyWord :
    (0#4 : RegNo) ≠ 15#4 ∧ (14#4 : RegNo) ≠ 15#4 ∧ (1#4 : RegNo) ≠ 15#4 ∧ (0#4 : RegNo) ≠ 1#4 ∧
    w5.variant = .v5 ∧ w4.variant = .v4 := by decide

theorem witness_MultiplyLong :
    (0#4 : RegNo) ≠ 15#4 ∧ (1#4 : RegNo) ≠ 15#4 ∧ (2#4 : RegNo) ≠ 15#4 ∧ (0#4 : RegNo) ≠ 1#4 ∧ (0#4 : RegNo) ≠ 2#4 ∧
    (1#4 : RegNo) ≠ 2#4 := by decide

theorem witness_MultiplyHalfword :
    (0#4 : RegNo) ≠ 15#4 ∧ (1#4 : RegNo) ≠ 15#4 ∧ (2#4 : RegNo) ≠ 15#4 ∧ (14#4 : RegNo) ≠ 15#4 ∧ (0#4 : RegNo) ≠ 1#4 := by
  decide

theorem witness_OperandRestrictions :
    dpLegal .add 15#4 0#4 (.regShift ⟨1#4, .lsl, 2#4⟩) = false ∧ dpLegal .mov 0#4 0#4 (.regShift ⟨15#4, .lsl, 2#4⟩) = false ∧
    dpLegal .mov 0#4 15#4 (.imm ⟨0#4, 0#8⟩) = true ∧ DpOp.mov.testsOnly = false ∧ hasSpsr wUser.mode = false ∧
    15#4 ∈ mulUsed (.mul .al false 15#4 1#4 2#4) ∧ 15#4 ∉ mulUsed (.umull .al false 1#4 1#4 2#4 3#4) ∧
    mulOverlaps (.umull .al false 1#4 1#4 2#4 3#4) = true ∧ mulOverlaps (.mul .al false 3#4 1#4 3#4) = true := by decide

/-- LDRSH post-indexed with the destination as base, and LDR with write-back. -/
theorem witness_LoadResult :
    let f : LsForm := ⟨.ldrsh, ⟨false, true, false⟩, 1#4, 1#4, offset8Imm 2#8⟩
    let g : LsForm := ⟨.ldr, ⟨true, false, true⟩, 1#4, 0#4, offset12 0#12⟩
    lsForm (.ldrshImm .al false true false 1#4 1#4 2#8) = some f ∧ lsForm (.ldrImm .al false true 1#4 0#4 0#12) = some g ∧
    f.rd ≠ 15#4 ∧ g.rd ≠ 15#4 ∧ f.trap w5 = none ∧ g.trap w5 = none ∧
    w5.busRead32 (alignDown (f.addr w5)) = .done 0x5002#32 w5 ∧
    w5.busRead32 (alignDown (g.addr w5)) = .done 0x5002#32 w5 := by
  refine ⟨rfl, rfl, ?_, ?_, ?_, ?_, rfl, rfl⟩ <;> decide

/-- An unaligned address (r6), an aligned one (r1), and each loaded word: aligned, odd, 2 modulo 4. -/
theorem witness_LoadProgramCounter :
    let f (rn : RegNo) : LsForm := ⟨.ldr, ⟨true, true, false⟩, rn, 15#4, offset12 0#12⟩
    lsForm (.ldrImm .al true false 6#4 15#4 0#12) = some (f 6#4) ∧ (f 6#4).trap w5 = none ∧
    ((f 6#4).addr w5).toNat % 4 ≠ 0 ∧ ((f 1#4).addr w5).toNat % 4 = 0 ∧
    w5.busRead32 ((f 1#4).addr w5) = .done 0x5002#32 w5 ∧ w5.loadedTarget 0x5002#32 = .error (.unpredictable .misalignedPC) ∧
    wAlign.loadedTarget 0x5002#32 = .ok 0x5000#32 ∧ w5.loadedTarget 0x5004#32 = .ok 0x5004#32 ∧
    w5.loadedTarget 0x5001#32 = .error (.unsupported (.thumbState 0x5001#32)) ∧
    w4.loadedTarget 0x5001#32 = .error (.unpredictable .misalignedPC) := by
  refine ⟨rfl, ?_, ?_, ?_, rfl, rfl, rfl, rfl, rfl, rfl⟩ <;> decide

/-- STRB and STR to raw memory. -/
theorem witness_StoreResult :
    let f : LsForm := ⟨.strb, ⟨true, true, true⟩, 1#4, 1#4, offset12 3#12⟩
    let g : LsForm := ⟨.str, ⟨false, false, false⟩, 13#4, 15#4, .scaled ⟨2#5, .lsl, 2#4⟩⟩
    lsForm (.strbImm .al true true 1#4 1#4 3#12) = some f ∧
    lsForm (.strRegPost .al false 13#4 15#4 ⟨2#5, .lsl, 2#4⟩) = some g ∧ f.trap w5 = none ∧ g.trap w5 = none ∧
    w5.mem.wf = true ∧ w5.rawAt (f.addr w5) 0x1000 ∧ w5.rawAt (g.addr w5) 0x2000 := by
  unfold State.rawAt
  refine ⟨rfl, rfl, ?_, ?_, ?_, ?_, ?_⟩ <;> decide

/-- A word with its byte `k` replaced has that byte, and the others of the word. -/
theorem byteOf_insertLane (k : Nat) (hk : k < 4) (v : Byte) (w : Word) (n : Nat) (hn : n < 4) :
    byteOf (insertLane (8 * k) v w) n = if n = k then v else byteOf w n := by
  apply BitVec.eq_of_getLsbD_eq
  intro i hi
  interval_cases k <;> interval_cases n <;> interval_cases i <;>
    simp [byteOf, insertLane, field]

/-- STR and STRB to the delegate of `wBus`; the sub-word store is a read and a write. -/
theorem witness_StoreResult_delegate :
    let f : LsForm := ⟨.strb, ⟨true, true, true⟩, 1#4, 1#4, offset12 3#12⟩
    let g : LsForm := ⟨.str, ⟨true, true, true⟩, 1#4, 1#4, offset12 3#12⟩
    let v := insertLane 24 (0#8 : Byte) (wAnswer 0 0x1000#32)
    f.trap wBus = none ∧ g.trap wBus = none ∧ f.kind ≠ .str ∧ g.kind = .str ∧
    wBus.Writes (alignDown (g.addr wBus)) (wBus.reg g.rd)
      { wBus with events := [.write .arm9 7 0x1000#32 0x1000#32] } ∧
    wBus.Reads (alignDown (f.addr wBus)) (wAnswer 0 0x1000#32) (wRead 0x1000#32) ∧
    (∀ n < 4, byteOf v n = match f.kind.storedLane wBus.endian (f.addr wBus) n with
      | some k => byteOf (wBus.reg f.rd) k
      | none => byteOf (wAnswer 0 0x1000#32) n) ∧
    (wRead 0x1000#32).Writes (alignDown (f.addr wBus)) v
      { wRead 0x1000#32 with events := .write .arm9 7 0x1000#32 v :: (wRead 0x1000#32).events } := by
  refine ⟨by decide, by decide, by decide, rfl, rfl, ⟨rfl, rfl⟩, fun n hn => ?_, rfl⟩
  rw [show (24 : Nat) = 8 * 3 from rfl, byteOf_insertLane 3 (by omega) _ _ n hn]
  interval_cases n <;> rfl

theorem witness_LoadDouble :
    let f : LsForm := ⟨.ldrd, ⟨true, true, true⟩, 1#4, 12#4, .reg 2#4⟩
    lsForm (.ldrdReg .al true true true 1#4 12#4 2#4) = some f ∧ f.kind = .ldrd ∧ f.trap w5 = none ∧
    w5.busRead32 (f.addr w5) = .done 0#32 w5 ∧ w5.busRead32 (f.addr w5 + 4#32) = .done 0#32 w5 := by
  refine ⟨rfl, ?_, ?_, rfl, rfl⟩ <;> decide

/-- STRD to raw memory, and to the delegate of `wBus`. -/
theorem witness_StoreDouble :
    let f : LsForm := ⟨.strd, ⟨false, true, false⟩, 1#4, 2#4, offset8Imm 8#8⟩
    let e0 : BusEvent := .write .arm9 7 0x1000#32 8#32
    let e1 : BusEvent := .write .arm9 7 0x1004#32 5#32
    lsForm (.strdImm .al false true false 1#4 2#4 8#8) = some f ∧ f.kind = .strd ∧ f.trap w5 = none ∧
    w5.mem.wf = true ∧ w5.rawAt (f.addr w5) 0x1000 ∧ w5.rawAt (f.addr w5 + 4#32) 0x1004 ∧ f.trap wBus = none ∧
    wBus.Writes (f.addr wBus) (wBus.reg f.rd) { wBus with events := [e0] } ∧
    ({ wBus with events := [e0] } : State).Writes (f.addr wBus + 4#32) (wBus.reg (f.rd + 1#4))
      { wBus with events := [e1, e0] } := by
  unfold State.rawAt
  refine ⟨rfl, ?_, ?_, ?_, ?_, ?_, ?_, rfl, rfl⟩ <;> decide

/-- A store and a load at 0xCCCCCCCC (r0), mapped to nothing; the write side of STRB and of the swaps at 0x3000, which can
only be read. -/
theorem witness_LoadStoreBusFault :
    let f : LsForm := ⟨.str, ⟨true, true, false⟩, 0#4, 1#4, offset12 0#12⟩
    let g : LsForm := ⟨.ldrd, ⟨true, true, false⟩, 0#4, 4#4, offset8Imm 4#8⟩
    let b : LsForm := ⟨.strb, ⟨true, true, false⟩, 13#4, 1#4, offset12 1#12⟩
    let s := wBus.setReg 13#4 0x3000#32
    lsForm (.strImm .al true false 0#4 1#4 0#12) = some f ∧ f.trap w5 = none ∧
    w5.WriteFaults (alignDown (f.addr w5)) 0xCCCCCCCC#32 ∧
    lsForm (.ldrdImm .al true true false 0#4 4#4 4#8) = some g ∧ g.trap w5 = none ∧
    w5.ReadFaults (alignDown (g.addr w5)) 0xCCCCCCD0#32 ∧
    lsForm (.strbImm .al true false 13#4 1#4 1#12) = some b ∧ b.trap s = none ∧
    s.Reads (alignDown (b.addr s)) 0#32 s ∧ s.WriteFaults (alignDown (b.addr s)) 0x3000#32 ∧
    w5.ReadFaults (alignDown (w5.reg 0#4)) 0xCCCCCCCC#32 ∧
    s.Reads (alignDown (s.reg 13#4)) 0#32 s ∧ s.WriteFaults (alignDown (s.reg 13#4)) 0x3000#32 := by
  refine ⟨rfl, ?_, rfl, rfl, ?_, rfl, rfl, ?_, ⟨rfl, rfl⟩, rfl, rfl, ⟨rfl, rfl⟩, rfl⟩ <;> decide

/-- LDRD and STRD at 0x1FF8 with nothing mapped from 0x1FFC on: the second access faults. -/
theorem witness_LoadStoreBusFault_double :
    let pages : PageTable := [(0, [⟨0, 0x1FFC, 0, .raw 0⟩, ⟨0x1FFC, 0x10000, 0, .invalid⟩])]
    let s := w5.setCpu { w5.cpu with bus := { addressBits := 32, pageBits := 16, readPages := pages, writePages := pages } }
    let t := s.setReg 13#4 0x1FF8#32
    let f : LsForm := ⟨.ldrd, ⟨true, true, false⟩, 13#4, 4#4, offset8Imm 0#8⟩
    let g : LsForm := ⟨.strd, ⟨true, true, false⟩, 13#4, 4#4, offset8Imm 0#8⟩
    lsForm (.ldrdImm .al true true false 13#4 4#4 0#8) = some f ∧ f.trap t = none ∧
    lsForm (.strdImm .al true true false 13#4 4#4 0#8) = some g ∧ g.trap t = none ∧
    t.Reads (alignDown (f.addr t)) 0#32 t ∧ t.ReadFaults (alignDown (f.addr t) + 4#32) 0x1FFC#32 ∧
    t.Writes (alignDown (g.addr t)) (t.reg g.rd) { t with mem := t.mem.writeWord 0x1FF8 (t.reg g.rd) } ∧
    t.WriteFaults (alignDown (g.addr t) + 4#32) 0x1FFC#32 := by
  refine ⟨rfl, ?_, rfl, ?_, ⟨rfl, rfl⟩, rfl, rfl, rfl⟩ <;> decide

/-- Raw memory at r1, and the delegate of `wBus` there; the byte that SWPB stores is that of lane 0. -/
theorem witness_Swap :
    let r2 : State := { wBus with
      draws := 2, events := [.read .arm9 7 0x1000#32 (wAnswer 1 0x1000#32), .read .arm9 7 0x1000#32 (wAnswer 0 0x1000#32)] }
    let v := insertLane 0 (8#8 : Byte) (wAnswer 1 0x1000#32)
    (1#4 : RegNo) ≠ 15#4 ∧ (2#4 : RegNo) ≠ 15#4 ∧ (1#4 : RegNo) ≠ 2#4 ∧ w5.mem.wf = true ∧
    w5.rawAt (w5.reg 1#4) 0x1000 ∧
    wBus.Reads (alignDown (wBus.reg 1#4)) (wAnswer 0 0x1000#32) (wRead 0x1000#32) ∧
    (wRead 0x1000#32).Writes (alignDown (wBus.reg 1#4)) (wBus.reg 2#4)
      { wRead 0x1000#32 with events := .write .arm9 7 0x1000#32 8#32 :: (wRead 0x1000#32).events } ∧
    (wRead 0x1000#32).Reads (alignDown (wBus.reg 1#4)) (wAnswer 1 0x1000#32) r2 ∧
    (∀ n < 4, byteOf v n = if n = laneOf wBus.endian (wBus.reg 1#4) then (wBus.reg 2#4).setWidth 8
      else byteOf (wAnswer 1 0x1000#32) n) ∧
    r2.Writes (alignDown (wBus.reg 1#4)) v { r2 with events := .write .arm9 7 0x1000#32 v :: r2.events } := by
  unfold State.rawAt
  refine ⟨by decide, by decide, by decide, by decide, by decide, ⟨rfl, rfl⟩, rfl, ⟨rfl, rfl⟩, fun n hn => ?_, rfl⟩
  rw [show (0 : Nat) = 8 * 0 from rfl, byteOf_insertLane 0 (by omega) _ _ n hn]
  interval_cases n <;> rfl

theorem witness_MixedWidthView :
    w5.mem.wf = true ∧ (0x1000#32 : Word).toNat % 4 = 0 ∧ w5.rawAt 0x1000#32 0x1000 := by
  unfold State.rawAt; decide

/-- LDMIA r1!, with and without r15 in the list; the word for r15 is that of each case of `loadedTarget`; and from the
delegate of `wBus`. -/
theorem witness_LoadMultiple :
    blockTrap (.ldm .al false true true 1#4 0x0025#16) w5 = none ∧
    w5.ReadsAll (wordAddrs (listCount 0x0025#16) (blockLow false true (w5.reg 1#4) 0x0025#16)) [0x5002#32, 0#32, 0#32] w5 ∧
    blockTrap (.ldm .al false true true 1#4 0x8000#16) w5 = none ∧
    w5.ReadsAll (wordAddrs (listCount 0x8000#16) (blockLow false true (w5.reg 1#4) 0x8000#16)) [0x5002#32] w5 ∧
    w5.loadedTarget 0x5002#32 = .error (.unpredictable .misalignedPC) ∧ wAlign.loadedTarget 0x5002#32 = .ok 0x5000#32 ∧
    blockTrap (.ldm .al false true false 1#4 0x0004#16) wBus = none ∧
    wBus.ReadsAll (wordAddrs (listCount 0x0004#16) (blockLow false true (wBus.reg 1#4) 0x0004#16)) [wAnswer 0 0x1000#32]
      (wRead 0x1000#32) := by
  refine ⟨by decide, ⟨_, _, _, rfl, ⟨rfl, rfl⟩, _, _, _, rfl, ⟨rfl, rfl⟩, _, _, _, rfl, ⟨rfl, rfl⟩, rfl, rfl⟩, by decide,
    ⟨_, _, _, rfl, ⟨rfl, rfl⟩, rfl, rfl⟩, rfl, rfl, by decide, ⟨_, _, _, rfl, ⟨rfl, rfl⟩, rfl, rfl⟩⟩

/-- LDMIA of the user registers r0 and r13 from raw memory, and of r14 from the delegate of `wBus`. -/
theorem witness_LoadMultipleUser :
    blockTrap (.ldmUser .al false true false 1#4 0x2001#15) w5 = none ∧
    w5.ReadsAll (wordAddrs (listCount ((0x2001#15).setWidth 16))
      (blockLow false true (w5.reg 1#4) ((0x2001#15).setWidth 16))) [0x5002#32, 0#32] w5 ∧
    blockTrap (.ldmUser .al false true false 1#4 0x4000#15) wBus = none ∧
    wBus.ReadsAll (wordAddrs (listCount ((0x4000#15).setWidth 16))
      (blockLow false true (wBus.reg 1#4) ((0x4000#15).setWidth 16))) [wAnswer 0 0x1000#32] (wRead 0x1000#32) := by
  refine ⟨by decide, ⟨_, _, _, rfl, ⟨rfl, rfl⟩, _, _, _, rfl, ⟨rfl, rfl⟩, rfl, rfl⟩, by decide,
    ⟨_, _, _, rfl, ⟨rfl, rfl⟩, rfl, rfl⟩⟩

/-- LDMFD sp!, {r0, pc}^ from raw memory; the word 0 for r15 returns, the SPSR with T = 1 or an invalid mode halts. -/
theorem witness_LoadMultipleReturn :
    let list : BitVec 16 := (1#15).setWidth 16 ||| 0x8000#16
    let t := w5.setCpu { w5.cpu with spsr := 0x30#32 }
    let m := w5.setCpu { w5.cpu with spsr := 0x05#32 }
    blockTrap (.ldmReturn .al false true true 13#4 1#15) w5 = none ∧
    w5.ReadsAll (wordAddrs (listCount list) (blockLow false true (w5.reg 13#4) list)) [0#32, 0#32] w5 ∧
    w5.returnTarget w5.cpu.spsr (([0#32, 0#32] : List Word).getD (slotOf list 15) 0#32) = .ok 0#32 ∧
    blockTrap (.ldmReturn .al false true true 13#4 1#15) t = none ∧
    t.returnTarget t.cpu.spsr 0#32 = .error (.unsupported (.thumbState 0#32)) ∧
    blockTrap (.ldmReturn .al false true true 13#4 1#15) m = none ∧
    m.returnTarget m.cpu.spsr 0#32 = .error (.unpredictable .invalidMode) := by
  refine ⟨by decide, ⟨_, _, _, rfl, ⟨rfl, rfl⟩, _, _, _, rfl, ⟨rfl, rfl⟩, rfl, rfl⟩, rfl, by decide, rfl, by decide, rfl⟩

/-- STMDB r13! with the base as its lowest register, STMIB of user registers with r15, and STMIA to the delegate of
`wBus`. -/
theorem witness_StoreMultiple :
    blockTrap (.stm .al true false true 13#4 0xE000#16) w5 = none ∧ w5.mem.wf = true ∧
    w5.blockAt (blockLow true false (w5.reg 13#4) 0xE000#16) 0xE000#16 (fun k => 0x2000 - 12 + 4 * k) ∧
    blockTrap (.stmUser .al true true false 1#4 0x8000#16) w5 = none ∧
    w5.blockAt (blockLow true true (w5.reg 1#4) 0x8000#16) 0x8000#16 (fun k => 0x1004 + 4 * k) ∧
    blockTrap (.stm .al false true false 1#4 0x000C#16) wBus = none ∧
    (∀ n : RegNo, (0x000C#16).getLsbD n.toNat = true →
      ([8#32, 5#32] : List Word)[slotOf 0x000C#16 n.toNat]? = some (wBus.reg n)) ∧
    wBus.WritesAll (wordAddrs (listCount 0x000C#16) (blockLow false true (wBus.reg 1#4) 0x000C#16)) [8#32, 5#32]
      { wBus with events := [.write .arm9 7 0x1004#32 5#32, .write .arm9 7 0x1000#32 8#32] } := by
  unfold State.blockAt State.rawAt
  refine ⟨by decide, by decide, by decide, by decide, by decide, by decide, by decide,
    ⟨_, _, _, rfl, rfl, _, _, _, rfl, rfl, rfl, rfl⟩⟩

theorem witness_TransferRestrictions :
    lsForm (.strhReg .al false true true 1#4 2#4 3#4) = some ⟨.strh, ⟨false, true, true⟩, 1#4, 2#4, .reg 3#4⟩ ∧
    LsForm.trap ⟨.strh, ⟨false, true, true⟩, 1#4, 2#4, .reg 3#4⟩ w5 = some .postIndexWriteback ∧
    LsForm.trap ⟨.ldrb, ⟨true, true, true⟩, 15#4, 2#4, .imm 0#32⟩ w5 = some .writebackPC ∧
    LsForm.trap ⟨.ldr, ⟨true, true, false⟩, 1#4, 2#4, .reg 15#4⟩ w5 = some .lsRegPC ∧
    LsForm.trap ⟨.str, ⟨false, true, false⟩, 1#4, 2#4, .reg 1#4⟩ w5 = some .lsOverlap ∧
    LsForm.trap ⟨.ldrt, ⟨false, true, true⟩, 1#4, 15#4, .imm 0#32⟩ w5 = some .pcDestination ∧
    LsForm.trap ⟨.strb, ⟨true, true, false⟩, 1#4, 15#4, .imm 0#32⟩ w5 = some .pcSource ∧
    LsForm.trap ⟨.ldrd, ⟨true, true, false⟩, 1#4, 3#4, .imm 0#32⟩ w5 = some .doubleRegOdd ∧
    LsForm.trap ⟨.strd, ⟨true, true, false⟩, 1#4, 2#4, .imm 4#32⟩ w5 = some .misalignedDoubleword ∧
    blockTrap (.ldm .al true true false 15#4 0#16) w5 = some .writebackPC ∧
    blockTrap (.stm .al true true false 1#4 0#16) w5 = some .emptyList ∧
    blockTrap (.stm .al true true true 1#4 3#16) w5 = some .lsOverlap ∧
    blockTrap (.ldmUser .al true true true 1#4 3#15) w5 = some .userBankWriteback ∧
    blockTrap (.stmUser .al true true false 1#4 3#16) wUser = some .userBankInUserMode ∧
    blockTrap (.ldmReturn .al true true false 1#4 0#15) wUser = some .noSPSR := by
  refine ⟨rfl, ?_, ?_, ?_, ?_, ?_, ?_, ?_, ?_, ?_, ?_, ?_, ?_, ?_, ?_⟩ <;> decide

/-- A block of two words from 0x2FFC on, whose second word lies beyond the mapped memory; r13 moved there. -/
theorem witness_BlockBusFault :
    let s := w5.setReg 13#4 0x2FFC#32
    let low := blockLow false true (s.reg 13#4) 3#16
    blockTrap (.stm .al false true false 13#4 3#16) s = none ∧ 1 < listCount 3#16 ∧
    blockTrap (.ldm .al false true false 13#4 3#16) s = none ∧ blockTrap (.ldmUser .al false true false 13#4 3#15) s = none ∧
    blockTrap (.ldmReturn .al false true false 13#4 3#15) s = none ∧
    blockTrap (.stmUser .al false true false 13#4 3#16) s = none ∧
    s.ReadsAll (wordAddrs 1 low) [0#32] s ∧ s.ReadFaults (alignDown (slotAddr low 1)) 0x3000#32 ∧
    (∀ n : RegNo, (3#16).getLsbD n.toNat = true → slotOf 3#16 n.toNat < 1 →
      ([0xCCCCCCCC#32] : List Word)[slotOf 3#16 n.toNat]? = some (s.reg n)) ∧
    s.WritesAll (wordAddrs 1 low) [0xCCCCCCCC#32] { s with mem := s.mem.writeWord 0x2FFC 0xCCCCCCCC#32 } ∧
    s.WriteFaults (alignDown (slotAddr low 1)) 0x3000#32 := by
  refine ⟨by decide, by decide, by decide, by decide, by decide, by decide, ⟨_, _, _, rfl, ⟨rfl, rfl⟩, rfl, rfl⟩, rfl,
    by decide, ⟨_, _, _, rfl, rfl, rfl, rfl⟩, rfl⟩

theorem witness_BranchAndLink : (w5.reg 15#4).toNat % 4 = 0 := by decide

/-- r1 is aligned, r6 is odd, a register one above is 2 modulo 4. -/
theorem witness_BranchExchange :
    (w5.reg 1#4).toNat % 4 = 0 ∧ (w5.reg 6#4).toNat % 2 = 1 ∧
    ((w5.setReg 6#4 0x5002#32).reg 6#4).toNat % 4 = 2 ∧ (6#4 : RegNo) ≠ 15#4 := by decide

theorem witness_ReadStatus : (0#4 : RegNo) ≠ 15#4 ∧ hasSpsr w5.mode = true ∧ hasSpsr wUser.mode = false := by decide

/-- MSR CPSR_c from SVC mode: to USR, to an invalid mode, to T = 1; and in USR mode, where only the flags byte counts. -/
theorem witness_WriteCpsr :
    (∀ n < 32, (0x10#32 : Word).getLsbD n =
      if (1#4 : BitVec 4).getLsbD (n / 8) = true ∧ (privileged w5.mode = true ∨ 24 ≤ n) ∧
        (psrMask w5.variant).getLsbD n = true then (msrOperand (.inl ⟨0#4, 0x10#8⟩) w5).getLsbD n
      else w5.cpu.cpsr.getLsbD n) ∧
    (∀ n < 32, (5#32 : Word).getLsbD n =
      if (1#4 : BitVec 4).getLsbD (n / 8) = true ∧ (privileged w5.mode = true ∨ 24 ≤ n) ∧
        (psrMask w5.variant).getLsbD n = true then (msrOperand (.inr 3#4) w5).getLsbD n
      else w5.cpu.cpsr.getLsbD n) ∧
    (∀ n < 32, (0x10#32 : Word).getLsbD n =
      if (1#4 : BitVec 4).getLsbD (n / 8) = true ∧ (privileged wUser.mode = true ∨ 24 ≤ n) ∧
        (psrMask wUser.variant).getLsbD n = true then (msrOperand (.inr 3#4) wUser).getLsbD n
      else wUser.cpu.cpsr.getLsbD n) ∧
    flagT 0x10#32 = flagT w5.cpu.cpsr ∧ validMode (modeField 0x10#32) = true ∧ validMode (modeField 5#32) = false ∧
    privileged w5.mode = true ∧ flagT 0x33#32 ≠ flagT w5.cpu.cpsr := by decide

theorem witness_WriteSpsr : hasSpsr w5.mode = true ∧ hasSpsr wUser.mode = false ∧ (.inr 3#4 : ImmOp ⊕ RegNo) ≠ .inr 15#4 := by
  decide

/-- MSR CPSR_c, #0x10 in SVC mode leaves SVC mode. -/
theorem witness_ModeChanges :
    exec (.msrImm .al .cpsr 1#4 ⟨0#4, 0x10#8⟩) w5 = .next (w5.putCpsr 0x10#32) ∧ (w5.putCpsr 0x10#32).mode ≠ w5.mode :=
  ⟨rfl, by decide⟩

theorem witness_ClzAndSaturating : (0#4 : RegNo) ≠ 15#4 ∧ (1#4 : RegNo) ≠ 15#4 ∧ (2#4 : RegNo) ≠ 15#4 := by decide

theorem witness_ExceptionsRefused :
    Cond.ne ≠ Cond.al ∧ w5.params.excModel = .unsupported ∧ undefinedRow (.undefMedia 0xE7F000F0#32) = some 0xE7F000F0#32 := by
  decide

theorem witness_ExceptionsEntered :
    wArch.params.excModel = .architectural ∧ undefinedRow (.undefMisc 0xE1000020#32) = some 0xE1000020#32 := by decide

theorem witness_UnsupportedAndUnconditional :
    coprocessorNumber (.mcr .al 0#3 1#4 0#4 15#4 0#3 0#4) = some 15#4 ∧ w5.params.nvV4 = .fault ∧
    ({ w5 with params := { w5.params with nvV4 := .never } } : State).params.nvV4 = .never := by decide

theorem witness_StepRunsDecodedInstruction :
    let s := wTurn 0xE3A00005#32
    s.session = none ∧ s.turn = some .arm9 ∧ (s.select .arm9).clearPending.interruptDue = none ∧
    (s.select .arm9).clearPending.fetch = .done 0xE3A00005#32 (s.select .arm9).clearPending ∧
    (decode .v5 0xE3A00005#32).wellFormed .v5 = true ∧
    conditionPassed 0xE3A00005#32 (s.select .arm9).clearPending.cpu.cpsr = true := by
  refine ⟨rfl, ?_, ?_, rfl, ?_, ?_⟩ <;> decide

/-- MOVEQ with Z = 0. -/
theorem witness_FailedConditionSkips :
    let s := wTurn 0x03A00005#32
    s.session = none ∧ s.turn = some .arm9 ∧ (s.select .arm9).clearPending.interruptDue = none ∧
    (s.select .arm9).clearPending.fetch = .done 0x03A00005#32 (s.select .arm9).clearPending ∧
    conditionPassed 0x03A00005#32 (s.select .arm9).clearPending.cpu.cpsr = false ∧ (s.cpuOf .arm9).halted = none := by
  refine ⟨rfl, ?_, ?_, rfl, ?_, ?_⟩ <;> decide

theorem witness_StepEnds :
    (w5.halt (.busFault 0#32)).cpu.halted ≠ none ∧ w5.cpu.halted = none := by decide

/-- Both levels up with F = 0: FIQ; then IRQ alone; then IRQ masked by I, and both masked. -/
theorem witness_InterruptEntry :
    let s := wTurn 0#32
    let t : State := { s with params := { s.params with excModel := .architectural }, arm9 := { s.arm9 with irq := true, fiq := true } }
    let u : State := { t with arm9 := { t.arm9 with fiq := false } }
    let m : State := { t with arm9 := { t.arm9 with cpsr := 0xD3#32 } }
    t.session = none ∧ t.turn = some .arm9 ∧ (t.cpuOf .arm9).fiq = true ∧ flagF (t.cpuOf .arm9).cpsr = false ∧
    u.session = none ∧ u.turn = some .arm9 ∧ (u.cpuOf .arm9).fiq = false ∧ (u.cpuOf .arm9).irq = true ∧
    flagI (u.cpuOf .arm9).cpsr = false ∧ u.params.excModel = .architectural ∧ m.session = none ∧ m.turn = some .arm9 ∧
    flagF (m.cpuOf .arm9).cpsr = true ∧ flagI (m.cpuOf .arm9).cpsr = true ∧ s.params.excModel = .unsupported := by decide

/-- PC at 0x4000, which is mapped to nothing. -/
theorem witness_FetchFaultHalts :
    let s0 := wTurn 0#32
    let s := s0.setCpu (s0.cpu.setPC 0x4000#32)
    s.session = none ∧ s.turn = some .arm9 ∧ (s.select .arm9).clearPending.interruptDue = none ∧
    (s.select .arm9).clearPending.fetch = .fault 0x4000#32 (s.select .arm9).clearPending := by
  refine ⟨rfl, ?_, ?_, rfl⟩ <;> decide

/-- A started CPU below the target, one at it, one that is not started (the ARM7), and a device below and at the target. -/
theorem witness_ClockTurn :
    let s := wTurn 0#32
    let at1 : State := { s with arm9 := { s.arm9 with tick := 1 } }
    let u : State := { s with clock := { s.clock with phase := .pass 1 1 [1] } }
    let d (x : Int) : State := { s with clock := { s.clock with masters := [.device 3 x] } }
    s.session = none ∧ s.params.schedule = .clock ∧ s.clock.phase = .pass 1 0 [] ∧ s.clock.masters[0]? = some (.cpu .arm9) ∧
    s.arm9.started = true ∧ s.arm9.halted = none ∧ s.arm9.tick < s.clock.targetTick ∧
    at1.clock.targetTick ≤ at1.arm9.tick ∧ u.clock.masters[1]? = some (.cpu .arm7) ∧ u.arm7.started = false ∧
    (d 0).clock.masters[0]? = some (.device 3 0) ∧ 0 < (d 0).clock.targetTick ∧ (d 1).clock.masters[0]? = some (.device 3 1) :=
  by decide

/-- The call with the frame ahead, and with it reached; the end of a pass: no under-run, an under-run, a goal not reached, and
no master at all. -/
theorem witness_ClockCallAndEndOfPass :
    let s := wTurn 0#32
    let i (x : Int) : State := { s with clock := { s.clock with phase := .idle, executedTick := x } }
    let u (r : List Int) : State := { s with clock := { s.clock with phase := .pass 1 2 r } }
    let n : State := { s with clock := { s.clock with phase := .pass 1 0 [], masters := [] } }
    (i 0).session = none ∧ (i 0).clock.phase = .idle ∧ (i 0).clock.executedTick < (i 0).params.ticksPerFrame ∧
    ((i 10).params.ticksPerFrame : Int) ≤ (i 10).clock.executedTick ∧
    (u [1, 2]).session = none ∧ (u [1, 2]).clock.phase = .pass 1 2 [1, 2] ∧ (u [1, 2]).clock.masters[2]? = none ∧
    (∀ x ∈ ([1, 2] : List Int), s.clock.targetTick ≤ x) ∧ (∃ x ∈ ([0, 1] : List Int), x < s.clock.targetTick) ∧
    n.clock.phase = .pass 1 0 [] ∧ n.clock.masters[0]? = none := by decide

theorem witness_ClockAdvance :
    let s := wTurn 0#32
    let u : State := { s with clock := { s.clock with phase := .returned 10 } }
    u.session = none ∧ u.params.schedule = .clock ∧ u.clock.phase = .returned 10 ∧
    (u.clock.masters.filter fun m => m = .cpu .arm7).length ≤ 1 ∧
    (u.clock.masters.filter fun m => m = .cpu .arm9).length ≤ 1 := by decide

/-- The ARM9 alone started, both started, the ARM7 alone, and none. -/
theorem witness_AnySchedule :
    let s : State := { w5 with params := { w5.params with schedule := .any } }
    let both : State := { s with arm7 := { s.arm7 with started := true } }
    s.session = none ∧ s.params.schedule = .any ∧ s.arm9.started = true ∧ s.arm9.halted = none ∧ s.arm7.started = false ∧
    s.turn = some .arm9 ∧ both.arm7.started = true ∧ both.arm7.halted = none ∧
    ({ both with arm9 := { s.arm9 with started := false } } : State).turn = some .arm7 ∧
    ({ State.reset with params := { defaultParams with schedule := .any } } : State).turn = none := by decide

theorem witness_SetPcAndIdleSteps :
    State.reset.session = none ∧ (State.reset.cpuOf .arm7).started = false ∧ (w5.halt (.busFault 0#32)).session = none ∧
    (w5.halt (.busFault 0#32)).arm9.started = true ∧ (w5.halt (.busFault 0#32)).arm9.halted ≠ none := by decide

/-- A bus of 16 address bits with an invalid, a raw and a delegated range, and addresses beyond it. -/
theorem witness_BusAccess :
    let b : Bus :=
      { addressBits := 16, pageBits := 16, readPages := vectorPages,
        writePages := [(0, [⟨0, 0x10000, 0, .delegate 3⟩])] }
    b.resolve .fault b.readPages 0#32 = .invalid 0#32 ∧ b.resolve .fault b.readPages 0x1004#32 = .raw 0x1004 ∧
    b.resolve .fault b.writePages 0x1004#32 = .delegate 3 0x1004#32 ∧ 2 ^ b.addressBits ≤ (0x11004#32 : Word).toNat ∧
    b.resolve .fault b.readPages 0x11004#32 = .invalid 0x11004#32 ∧
    b.resolve .wrap b.readPages 0x11004#32 = .raw 0x1004 := by decide

/-- R103's own example: [0x1000, 0x2000), then [0x1800, 0x1C00), gives three items; a base of 8 is refused, and so is a
geometry of 33 address bits. -/
theorem witness_AddRange :
    (((Bus.create 16 16).bind (Bus.addRange .both 0x1000 0x1000 (.raw 1))).bind
      (Bus.addRange .read 0x1800 0x400 (.raw 2))).map (fun b => b.pageItems b.readPages 0) =
      some [⟨0, 0x1000, 0, .invalid⟩, ⟨0x1000, 0x1800, 0x1000, .raw 1⟩, ⟨0x1800, 0x1C00, 0x1800, .raw 2⟩,
            ⟨0x1C00, 0x2000, 0x1000, .raw 1⟩, ⟨0x2000, 0x10000, 0, .invalid⟩] ∧
    (Bus.create 16 16).bind (Bus.addRange .both 8 16 .invalid) = none ∧ Bus.create 33 16 = none ∧
    Bus.create 16 0 = none ∧ Bus.create 12 16 = none ∧ Bus.reset.pageOk Bus.reset.readPages 0 = true := by decide

theorem witness_RoundTrips :
    familyOf (.movRegShift .al true 0#4 1#4 ⟨2#4, .ror, 3#4⟩) = .dataProcessing ∧
    familyOf (.strdReg .al true true false 1#4 2#4 3#4) = .transfer ∧ (Instr.strdReg .al true true false 1#4 2#4 3#4).wellFormed .v5 = true ∧
    familyOf (.stmUser .al true true false 1#4 3#16) = .transfer ∧ familyOf (.smlalxy .al 0#4 1#4 2#4 .top .top 3#4) = .other ∧
    familyOf (.blxImm true 0#24) = .other ∧ familyOf (.ldc2 true true true true 0#4 1#4 2#4 0#8) = .other ∧
    familyOf (.undefMul 0xE0400090#32) = .other ∧ (Instr.undefMul 0xE0400090#32).wellFormed .v4 = true := by decide

theorem witness_InvariantKept : (wTurn 0xE3A00005#32).Inv = true ∧ ∃ t, step (wTurn 0xE3A00005#32) = .next t :=
  ⟨by decide, _, rfl⟩

theorem witness_InvariantAtReset : w5.Inv = true ∧ flagT w5.params.resetCpsr = false := by decide

/-- MSR CPSR_c, #0x13 in USR mode. -/
theorem witness_UserModeStays :
    let s := wUser.withNextWord 0xE321F013#32
    s.params.excModel = .unsupported ∧ modeField (s.cpuOf .arm9).cpsr = Mode.usr.bits ∧ ∃ t, step s = .next t :=
  ⟨by decide, by decide, _, rfl⟩

theorem witness_StepsAreIndivisible :
    ({ w5 with session := some .badRange } : State).session = some .badRange ∧ w5.session = none ∧
    (w5.cpuOf .arm7).started = false ∧ (wTurn 0#32).turn = some .arm9 ∧ State.reset.turn = none := by decide

/-! ### The boot sequence (R710) and the end of the session (R712) -/

/-- What log 1, 3, 4 and 5 give the two CPUs. -/
def resetSetup (id : CpuId) (divider : Nat) : CpuSetup :=
  { family := some id, endian := .little, vectorBase := .low, clockDivider := divider, addressBits := 32, pageBits := 32
    ranges := [⟨.both, 0, 0x100000000, .raw 0⟩], image := [], ramAddress := 0#32, entry := 0x8000#32 }

/-- Steps 1 to 5 of R710 give the state after reset, with each CPU registered once. -/
theorem test_boot_reset :
    State.reset.bootReset [resetSetup .arm9 2, resetSetup .arm7 4] = State.reset := by decide

/-- Step 6 starts each CPU at its entry. -/
theorem test_boot_starts :
    let s := State.reset.boot [resetSetup .arm9 2, resetSetup .arm7 4]
    s.clock.masters = [.cpu .arm9, .cpu .arm7] ∧ s.arm7.started = true ∧ s.arm7.pc = 0x8000#32 ∧
    s.arm9.r[15] = 0x8008#32 := by decide

/-- An unknown family, a bad geometry and a bad range end the session: no step of the block or of a harness runs. -/
theorem test_boot_fails :
    let bad : List CpuSetup :=
      [{ resetSetup .arm9 2 with family := none }, { resetSetup .arm9 2 with pageBits := 33 },
       { resetSetup .arm9 2 with ranges := [⟨.both, 8, 16, .raw 0⟩] }]
    (bad.map fun x => (State.reset.boot [resetSetup .arm7 4, x]).session) =
      [some .unknownFamily, some .badGeometry, some .badRange] ∧
    ∀ x ∈ bad, let s := State.reset.boot [resetSetup .arm7 4, x]
      s.hostStep .arm7 = none ∧ s.cpuExecute .arm7 10 20 = none ∧ s.clockExecute 20 10 = none ∧
      ∃ f, step s = .fault f := by
  refine ⟨by decide, fun x hx => ?_⟩
  simp only [List.mem_cons, List.not_mem_nil, or_false] at hx
  rcases hx with rfl | rfl | rfl <;> exact ⟨by decide, by decide, by decide, _, rfl⟩

/-- File byte j of an image is what LDRB reads at RAMAddress + j, in both byte orders (D35, R113). -/
theorem test_image_byte_view :
    [Endian.little, .big].all (fun e =>
      let s := State.reset.boot [{ resetSetup .arm9 2 with
        endian := e, image := [1, 2, 3, 4, 5], ramAddress := 0x100#32 }]
      (List.range 5).all fun j => match s.memRead8 (0x100#32 + BitVec.ofNat 32 j) with
        | .done v _ => v == BitVec.ofNat 8 (j + 1)
        | _ => false) = true := by decide

end Sys2Proof.Tests
end

section
/-! SUPPORT. Single loads, stores and swaps by their form: what an access answers on a bus that faults, the checks of a
form against its restrictions, and one equation for each shape of transfer that no restriction stops. -/

namespace Sys2Proof.Machine

open Sys2Proof.Config

/-! ### Addresses -/

/-- The low bits of a word are not all 0 exactly when they leave a remainder. -/
theorem bits_zero_bne (n : Nat) (a : Word) : (bits 0 n a != 0#n) = decide (a.toNat % 2 ^ n ≠ 0) := by
  rw [Bool.eq_iff_iff]
  simp [bits, ← BitVec.toNat_inj]

/-- Bit 0 of a register number says whether it is odd. -/
theorem regNo_getLsbD_zero (r : RegNo) : r.getLsbD 0 = decide (r.toNat % 2 = 1) := by
  rw [BitVec.getLsbD, Nat.testBit_zero]

/-- The word after the word that holds an address holds the address four bytes on. -/
theorem alignDown_add_four (a : Word) : alignDown (a + 4#32) = alignDown a + 4#32 := by
  have h : (a + 4#32).toNat % 4 = a.toNat % 4 := by rw [BitVec.toNat_add, BitVec.toNat_ofNat]; omega
  unfold alignDown
  rw [h, add_sub_right_comm]

/-! ### Faults of the bus after earlier calls -/

/-- An answered read does not change where reads fault. -/
theorem State.Reads.readFaults {a b w x : Word} {s t : State} (h : s.Reads a w t) (hf : s.ReadFaults b x) :
    t.ReadFaults b x := by
  rw [h.keeps]; exact hf

/-- An answered read does not change where writes fault. -/
theorem State.Reads.writeFaults {a b w x : Word} {s t : State} (h : s.Reads a w t) (hf : s.WriteFaults b x) :
    t.WriteFaults b x := by
  rw [h.keeps]; exact hf

/-- A write that is made does not change where writes fault. -/
theorem State.Writes.writeFaults {a b v x : Word} {s t : State} (h : s.Writes a v t) (hf : s.WriteFaults b x) :
    t.WriteFaults b x := by
  rw [h.keeps]; exact hf

/-! ### Accesses -/

/-- What follows an access that faulted is the BusFault (R107). -/
@[simp] theorem Access.finish_fault {α : Type} (x : Word) (s : State) (k : α → State → Result) :
    (Access.fault x s).finish k = .next (s.halt (.busFault x)) := rfl

/-- What follows an access that was done goes on with its value. -/
@[simp] theorem Access.finish_done {α : Type} (v : α) (s : State) (k : α → State → Result) :
    (Access.done v s).finish k = k v s := rfl

/-- A word read is the bus read of the word address (R111). -/
theorem State.memRead32_eq (a : Word) (s : State) : s.memRead32 a = s.busRead32 (alignDown a) := by
  rw [State.memRead32, wordAlign_eq_alignDown]

/-- A word write is the bus write of the word address (R114). -/
theorem State.memWrite32_eq (a v : Word) (s : State) : s.memWrite32 a v = s.busWrite32 (alignDown a) v := by
  rw [State.memWrite32, wordAlign_eq_alignDown]

/-- The access of a single load of one register (R406, R411, R425 to R427). -/
def LsKind.load : LsKind → Word → State → Access Word
  | .ldrb => State.loadByte
  | .ldrh => State.loadHalf
  | .ldrsb => State.loadSignedByte
  | .ldrsh => State.loadSignedHalf
  | _ => State.loadWord

/-- The access of a single store of one register that holds `v` (R412, R413, R428). -/
def LsKind.store (v : Word) : LsKind → Word → State → Access Unit
  | .strb => fun a s => s.memWrite8 a (bits 0 8 v)
  | .strh => fun a s => s.memWrite16 a (bits 0 16 v)
  | _ => fun a s => s.memWrite32 a v

/-- A load faults, with no effect, when its read does. -/
theorem LsKind.load_fault {a x : Word} {s : State} (k : LsKind) (h : s.ReadFaults (alignDown a) x) :
    k.load a s = .fault x s := by
  have hr : s.busRead32 (wordAlign a) = .fault x s := by
    rw [wordAlign_eq_alignDown]; exact State.busRead32_fault h
  cases k <;>
    simp [LsKind.load, State.loadByte, State.loadHalf, State.loadSignedByte, State.loadSignedHalf, State.loadWord,
      State.memRead8, State.memRead16, State.memRead32, hr, Access.map]

/-- A load whose read is answered is done in the state of the answer. -/
theorem LsKind.load_done {a w : Word} {s t : State} (k : LsKind) (h : s.Reads (alignDown a) w t) :
    ∃ v, k.load a s = .done v t := by
  have hr : s.busRead32 (wordAlign a) = .done w t := by
    rw [wordAlign_eq_alignDown]; exact State.busRead32_done.2 h
  cases k <;>
    simp [LsKind.load, State.loadByte, State.loadHalf, State.loadSignedByte, State.loadSignedHalf, State.loadWord,
      State.memRead8, State.memRead16, State.memRead32, hr, Access.map]

/-- A word store faults, with no effect, when its write does (R114). -/
theorem LsKind.store_word_fault {a v x : Word} {s : State} (h : s.WriteFaults (alignDown a) x) :
    LsKind.str.store v a s = .fault x s :=
  (State.memWrite32_eq a v s).trans (State.busWrite32_fault h)

/-- A byte or halfword store faults, with no effect, when its read does (R115, R116). -/
theorem LsKind.store_readFault {a v x : Word} {s : State} {k : LsKind} (hk : k ∈ [LsKind.strb, .strh])
    (h : s.ReadFaults (alignDown a) x) : k.store v a s = .fault x s := by
  have hr := State.busRead32_fault h
  rw [← wordAlign_eq_alignDown] at hr
  rcases List.mem_pair.1 hk with rfl | rfl <;>
    simp [LsKind.store, State.memWrite8, State.memWrite16, hr, Access.andThen]

/-- A byte or halfword store whose read is answered faults there when its write does (R115, R116). -/
theorem LsKind.store_writeFault {a v w x : Word} {s t : State} {k : LsKind} (hk : k ∈ [LsKind.strb, .strh])
    (h : s.Reads (alignDown a) w t) (hw : s.WriteFaults (alignDown a) x) : k.store v a s = .fault x t := by
  have hr := State.busRead32_done.2 h
  have hf (u : Word) := State.busWrite32_fault (v := u) (h.writeFaults hw)
  rw [← wordAlign_eq_alignDown] at hr hf
  rcases List.mem_pair.1 hk with rfl | rfl <;>
    simp [LsKind.store, State.memWrite8, State.memWrite16, hr, hf, Access.andThen]

/-! ### Forms -/

/-- The offset address of a form is that of its transfer (R402). -/
theorem LsForm.offsetAddress_eq (f : LsForm) (s : State) : s.offsetAddress f.x f.rn f.o = f.offAddr s := by
  obtain ⟨_, _, _, _, o⟩ := f
  cases o <;> rfl

/-- The address of a form is that of its transfer (R402). -/
theorem LsForm.transferAddress_eq (f : LsForm) (s : State) : s.transferAddress f.x f.rn f.o = f.addr s := by
  rw [State.transferAddress, LsForm.addr, LsForm.offsetAddress_eq]

/-- The checks of a form, in the order of its rules (R404, R423, R440). -/
def LsForm.checks (f : LsForm) (s : State) : List (Bool × UnpredictableReason) :=
  match f.kind with
  | .ldr | .str => indexChecks f.x f.rn f.o
  | .ldrt | .ldrb => indexChecks f.x f.rn f.o ++ loadDestCheck f.rd
  | .strb => indexChecks f.x f.rn f.o ++ storeSourceCheck f.rd
  | .ldrh | .ldrsb | .ldrsh => mode3Checks f.x f.rn f.o ++ loadDestCheck f.rd
  | .strh => mode3Checks f.x f.rn f.o ++ storeSourceCheck f.rd
  | .ldrd => mode3Checks f.x f.rn f.o ++ doubleChecks true f.x f.rn f.rd f.o (f.addr s)
  | .strd => mode3Checks f.x f.rn f.o ++ doubleChecks false f.x f.rn f.rd f.o (f.addr s)

/-- The register of a form's offset, in its two spellings. -/
theorem LsForm.offset_rm (f : LsForm) : f.o.rm = f.rm := by
  obtain ⟨_, _, _, _, o⟩ := f
  cases o <;> rfl

/-- Whether a form writes its base back, in its two spellings. -/
theorem LsForm.writesBack_eq (f : LsForm) : f.x.writesBack = f.wb := by
  simp [Index.writesBack, LsForm.wb]

/-- The first check of a form that applies is the first restriction it breaks. -/
theorem LsForm.firstApplying_checks (f : LsForm) (s : State) : firstApplying (f.checks s) = f.trap s := by
  obtain ⟨k, x, rn, rd, o⟩ := f
  cases k <;>
    simp [LsForm.checks, LsForm.trap, LsForm.mode3, ← LsForm.offset_rm, ← LsForm.writesBack_eq, firstApplying,
      mode3Checks, postIndexCheck, indexChecks, loadDestCheck, storeSourceCheck, doubleChecks, bits_zero_bne,
      regNo_getLsbD_zero, -BitVec.getLsbD_eq_getElem]

/-- The transfer of a form (R403): the shared operation of its kind, with its checks and its access. -/
def LsForm.run (f : LsForm) (s : State) : Result :=
  match f.kind with
  | .ldr => s.loadWordForm f.x f.rn f.rd f.o
  | .ldrt | .ldrb | .ldrh | .ldrsb | .ldrsh => s.loadTransfer (f.checks s) f.x f.rn f.rd f.o f.kind.load
  | .str | .strb | .strh => s.storeTransfer (f.checks s) f.x f.rn f.o (f.kind.store (s.reg f.rd))
  | .ldrd => s.loadDoubleForm f.x f.rn f.rd f.o
  | .strd => s.storeDoubleForm f.x f.rn f.rd f.o

/-- A single load or store is the transfer of its form. -/
theorem exec_eq_run {i : Instr} {f : LsForm} (h : lsForm i = some f) (s : State) : exec i s = f.run s := by
  unfold lsForm at h
  split at h <;> cases h <;> rfl

/-! ### Transfers that no restriction stops -/

section Transfers

variable {i : Instr} {f : LsForm} {s : State}

/-- A load of one register other than a load of r15: the access at the address of the form, then the register writes. -/
theorem exec_load (hf : lsForm i = some f) (ht : f.trap s = none)
    (hk : f.kind ∈ [LsKind.ldr, .ldrt, .ldrb, .ldrh, .ldrsb, .ldrsh]) (hrd : f.kind = .ldr → f.rd ≠ 15#4) :
    exec i s = (f.kind.load (f.addr s) s).finish fun v s1 =>
      .next (s1.commitLoad f.x f.rn (f.offAddr s) (State.setReg f.rd v)) := by
  have hrun : f.run s = s.loadTransfer (f.checks s) f.x f.rn f.rd f.o f.kind.load := by
    unfold LsForm.run LsForm.checks
    cases hkind : f.kind <;> simp_all [State.loadWordForm, LsKind.load]
  rw [exec_eq_run hf, hrun, State.loadTransfer, State.guarded_pass ((f.firstApplying_checks s).trans ht),
    f.transferAddress_eq, f.offsetAddress_eq]

/-- A load of r15 from an aligned address (R407): the read, then the checks of the target, then the writes. -/
theorem exec_loadPc (hf : lsForm i = some f) (ht : f.trap s = none) (hk : f.kind = .ldr) (hrd : f.rd = 15#4)
    (ha : (f.addr s).toNat % 4 = 0) :
    exec i s = (s.memRead32 (f.addr s)).finish fun v s1 =>
      match s1.pcTarget (loadPcKind s.variant) v with
      | .error why => s1.raise why
      | .ok t => .next (s1.commitLoad f.x f.rn (f.offAddr s) (State.setPendingPC t)) := by
  have hc : firstApplying (indexChecks f.x f.rn f.o) = none := by
    rw [← ht, ← f.firstApplying_checks s, LsForm.checks, hk]
  rw [firstApplying_none] at hc
  have hpass : firstApplying (indexChecks f.x f.rn f.o ++
      [(bits 0 2 (s.transferAddress f.x f.rn f.o) != 0#2, .misalignedPCLoad)]) = none := by
    rw [firstApplying_none, f.transferAddress_eq]
    simpa [bits_zero_bne, ha] using hc
  rw [exec_eq_run hf, LsForm.run, hk, ← f.transferAddress_eq, ← f.offsetAddress_eq]
  exact (if_pos hrd).trans (State.guarded_pass hpass)

/-- A store of one register: the access at the address of the form, then the write-back. -/
theorem exec_store (hf : lsForm i = some f) (ht : f.trap s = none) (hk : f.kind ∈ [LsKind.str, .strb, .strh]) :
    exec i s = (f.kind.store (s.reg f.rd) (f.addr s) s).finish fun _ s1 =>
      .next (s1.writeBack f.x f.rn (f.offAddr s)) := by
  have hrun : f.run s = s.storeTransfer (f.checks s) f.x f.rn f.o (f.kind.store (s.reg f.rd)) := by
    unfold LsForm.run
    cases hkind : f.kind <;> simp_all
  rw [exec_eq_run hf, hrun, State.storeTransfer, State.guarded_pass ((f.firstApplying_checks s).trans ht),
    f.transferAddress_eq, f.offsetAddress_eq]

/-- LDRD (R441): the two reads in order, then the register writes. -/
theorem exec_loadDouble (hf : lsForm i = some f) (ht : f.trap s = none) (hk : f.kind = .ldrd) :
    exec i s = (s.memRead32 (f.addr s)).finish fun v0 s1 =>
      (s1.memRead32 (f.addr s + 4#32)).finish fun v1 s2 =>
        .next (s2.commitLoad f.x f.rn (f.offAddr s) fun t => (t.setReg f.rd v0).setReg (f.rd + 1#4) v1) := by
  have hc := (f.firstApplying_checks s).trans ht
  rw [LsForm.checks, hk] at hc
  rw [exec_eq_run hf, LsForm.run, hk]
  simp only [State.loadDoubleForm, f.transferAddress_eq, f.offsetAddress_eq, State.guarded_pass hc]

/-- STRD (R442): the two writes in order, then the write-back. -/
theorem exec_storeDouble (hf : lsForm i = some f) (ht : f.trap s = none) (hk : f.kind = .strd) :
    exec i s = (s.memWrite32 (f.addr s) (s.reg f.rd)).finish fun _ s1 =>
      (s1.memWrite32 (f.addr s + 4#32) (s.reg (f.rd + 1#4))).finish fun _ s2 =>
        .next (s2.writeBack f.x f.rn (f.offAddr s)) := by
  have hc := (f.firstApplying_checks s).trans ht
  rw [LsForm.checks, hk] at hc
  rw [exec_eq_run hf, LsForm.run, hk]
  simp only [State.storeDoubleForm, f.transferAddress_eq, f.offsetAddress_eq, State.guarded_pass hc]

end Transfers

/-- A swap within R450: the load, the store, then the register write. -/
theorem State.swapForm_pass {rn rd rm : RegNo} (hn : rn ≠ 15#4) (hd : rd ≠ 15#4) (hm : rm ≠ 15#4) (hnm : rn ≠ rm)
    (hnd : rn ≠ rd) (load : Word → State → Access Word) (store : Word → State → Access Unit) (s : State) :
    s.swapForm rn rd rm load store = (load (s.reg rn) s).finish fun v s1 =>
      (store (s.reg rn) s1).finish fun _ s2 => .next (s2.setReg rd v) :=
  State.guarded_pass (by simp [swapChecks, firstApplying, hn, hd, hm, hnm, hnd])

/-- SWP is a swap by the accesses of LDR and STR (R450). -/
theorem exec_swp (c : Cond) (rn rd rm : RegNo) (s : State) :
    exec (.swp c rn rd rm) s = s.swapForm rn rd rm LsKind.ldr.load (LsKind.str.store (s.reg rm)) := rfl

/-- SWPB is a swap by the accesses of LDRB and STRB (R451). -/
theorem exec_swpb (c : Cond) (rn rd rm : RegNo) (s : State) :
    exec (.swpb c rn rd rm) s = s.swapForm rn rd rm LsKind.ldrb.load (LsKind.strb.store (s.reg rm)) := rfl

end Sys2Proof.Machine
end

section
/-! SUPPORT. Bus faults of single loads and stores, access by access (R107, R403), and of the swaps. -/

namespace Sys2Proof.Machine

open Sys2Proof.Config

section Faults

variable {i : Instr} {f : LsForm} {s s1 : State} {w x : Word}

/-! ### The first access -/

/-- STR and STRD halt when the first write faults. -/
theorem exec_firstWrite_busFault (hf : lsForm i = some f) (ht : f.trap s = none) (hk : f.kind ∈ [LsKind.str, .strd])
    (hw : s.WriteFaults (alignDown (f.addr s)) x) : exec i s = .next (s.halt (.busFault x)) := by
  rcases List.mem_pair.1 hk with hk | hk
  · rw [exec_store hf ht (by simp [hk]), hk, LsKind.store_word_fault hw, Access.finish_fault]
  · rw [exec_storeDouble hf ht hk, State.memWrite32_eq, State.busWrite32_fault hw, Access.finish_fault]

/-- Every other form halts when its first read faults: LDR of r15, the other loads of one register, LDRD, and the stores
that read the word they change. -/
theorem exec_firstRead_busFault (hf : lsForm i = some f) (ht : f.trap s = none)
    (hpc : f.kind = .ldr ∧ f.rd = 15#4 → (f.addr s).toNat % 4 = 0) (hk : f.kind ∉ [LsKind.str, .strd])
    (hr : s.ReadFaults (alignDown (f.addr s)) x) : exec i s = .next (s.halt (.busFault x)) := by
  have hload (hk : f.kind ∈ [LsKind.ldr, .ldrt, .ldrb, .ldrh, .ldrsb, .ldrsh]) (hrd : f.kind = .ldr → f.rd ≠ 15#4) :
      exec i s = .next (s.halt (.busFault x)) := by
    rw [exec_load hf ht hk hrd, LsKind.load_fault _ hr, Access.finish_fault]
  have hstore (hk : f.kind ∈ [LsKind.strb, .strh]) : exec i s = .next (s.halt (.busFault x)) := by
    rw [exec_store hf ht (List.mem_cons_of_mem _ hk), LsKind.store_readFault hk hr, Access.finish_fault]
  cases hkind : f.kind with
  | ldr =>
    by_cases hrd : f.rd = 15#4
    · rw [exec_loadPc hf ht hkind hrd (hpc ⟨hkind, hrd⟩), State.memRead32_eq, State.busRead32_fault hr,
        Access.finish_fault]
    · exact hload (by simp [hkind]) fun _ => hrd
  | ldrt | ldrb | ldrh | ldrsb | ldrsh => exact hload (by simp [hkind]) (by simp [hkind])
  | ldrd => rw [exec_loadDouble hf ht hkind, State.memRead32_eq, State.busRead32_fault hr, Access.finish_fault]
  | strb | strh => exact hstore (by simp [hkind])
  | str | strd => simp [hkind] at hk

/-! ### The second access -/

/-- STRB and STRH halt after their read when the write faults (R115, R116). -/
theorem exec_storeLane_writeFault (hf : lsForm i = some f) (ht : f.trap s = none) (hk : f.kind ∈ [LsKind.strb, .strh])
    (hr : s.Reads (alignDown (f.addr s)) w s1) (hw : s.WriteFaults (alignDown (f.addr s)) x) :
    exec i s = .next (s1.halt (.busFault x)) := by
  rw [exec_store hf ht (List.mem_cons_of_mem _ hk), LsKind.store_writeFault hk hr hw, Access.finish_fault]

/-- LDRD halts after its first read when the second faults (R441). -/
theorem exec_secondRead_busFault (hf : lsForm i = some f) (ht : f.trap s = none) (hk : f.kind = .ldrd)
    (hr : s.Reads (alignDown (f.addr s)) w s1) (hr2 : s.ReadFaults (alignDown (f.addr s) + 4#32) x) :
    exec i s = .next (s1.halt (.busFault x)) := by
  rw [exec_loadDouble hf ht hk, State.memRead32_eq, State.busRead32_done.2 hr, Access.finish_done, State.memRead32_eq,
    alignDown_add_four, State.busRead32_fault (hr.readFaults hr2), Access.finish_fault]

/-- STRD halts with its first word stored when the second write faults (R442). -/
theorem exec_secondWrite_busFault (hf : lsForm i = some f) (ht : f.trap s = none) (hk : f.kind = .strd)
    (hw : s.Writes (alignDown (f.addr s)) (s.reg f.rd) s1) (hw2 : s.WriteFaults (alignDown (f.addr s) + 4#32) x) :
    exec i s = .next (s1.halt (.busFault x)) := by
  rw [exec_storeDouble hf ht hk, State.memWrite32_eq, State.busWrite32_done.2 hw, Access.finish_done,
    State.memWrite32_eq, alignDown_add_four, State.busWrite32_fault (hw.writeFaults hw2), Access.finish_fault]

end Faults

/-! ### The obligation -/

/-- Settles O17: each access of a form or of a swap within R450 that faults halts where the accesses before it left the
block. -/
theorem loadStoreBusFault : Obligations.LoadStoreBusFault := by
  intro i f c rn rd rm s s1 s2 v w x
  refine ⟨fun hf ht hpc => ⟨exec_firstWrite_busFault hf ht, exec_firstRead_busFault hf ht hpc,
    exec_storeLane_writeFault hf ht, exec_secondRead_busFault hf ht, exec_secondWrite_busFault hf ht⟩,
    fun hn hd hm hnm hnd => ?_⟩
  simp only [exec_swp, exec_swpb, State.swapForm_pass hn hd hm hnm hnd]
  refine ⟨fun hr => ?_, fun hr hw => ?_, fun hr hr2 hw => ?_⟩
  · simp only [LsKind.load_fault _ hr, Access.finish_fault, and_self]
  · obtain ⟨u, hu⟩ := LsKind.ldr.load_done hr
    rw [hu, Access.finish_done, LsKind.store_word_fault (hr.writeFaults hw), Access.finish_fault]
  · obtain ⟨u, hu⟩ := LsKind.ldrb.load_done hr
    rw [hu, Access.finish_done, LsKind.store_writeFault (by simp) hr2 (hr.writeFaults hw), Access.finish_fault]

end Sys2Proof.Machine
end

section
/-! SUPPORT. What one instruction can do, said once: it makes a run of moves (writes of a register, of the flags, of a
status word or of the pending target, bus calls, draws, an exception entry), then completes or raises. What every move
keeps, every instruction keeps. -/

namespace Sys2Proof.Machine

open Sys2Proof.Config

/-! ### Moves -/

/-- The moves that instructions are made of, each with what its rule has checked: a written CPSR keeps T and the
reserved bits, and its mode in USR mode (R536); a written SPSR keeps the reserved bits (R537); a target of the program
counter is word aligned (R240); exceptions are entered under EXC_MODEL = architectural alone (R630). -/
inductive State.Move : State → State → Prop
  | setReg (i : RegNo) (v : Word) (s : State) : Move s (s.setReg i v)
  | setUserReg (i : RegNo) (v : Word) (s : State) : Move s (s.setUserReg i v)
  | setNZCV (n z c v : Bool) (s : State) : Move s (s.setNZCV n z c v)
  | stickQ (q : Bool) (s : State) : Move s (s.stickQ q)
  | draw (n : Nat) (s : State) : Move s (s.afterDraws n)
  | busRead {a w : Word} {s t : State} (h : s.Reads a w t) : Move s t
  | busWrite {a v : Word} {s t : State} (h : s.Writes a v t) : Move s t
  | setPendingPC {t : Word} (s : State) (h : bits 0 2 t = 0#2) : Move s (s.setPendingPC t)
  | putCpsr {new : Word} {s : State} (hT : flagT new = flagT s.cpu.cpsr)
      (hR : new &&& ~~~psrMask s.variant = s.cpu.cpsr &&& ~~~psrMask s.variant)
      (hM : privileged s.mode = false → modeField new = s.mode) : Move s (s.putCpsr new)
  | putSpsr {new : Word} {s : State} (hR : new &&& ~~~psrMask s.variant = s.cpu.spsr &&& ~~~psrMask s.variant) :
      Move s (s.setCpu { s.cpu with spsr := new })
  | enterException (k : Exception) {s : State} (h : s.params.excModel = .architectural) : Move s (s.enterException k)

/-- A run of moves. -/
def State.Moves : State → State → Prop := Relation.ReflTransGen State.Move

/-- How an instruction ends: after a run of moves it completes, or it raises there (R15, R230). -/
inductive State.Ends (s : State) : Result → Prop
  | done {t : State} (h : s.Moves t) : Ends s (.next t)
  | raised {t : State} (h : s.Moves t) (why : StopReason) : Ends s (t.raise why)

section

variable {s t u : State}

/-- No move at all. -/
@[simp] theorem State.Moves.refl (s : State) : s.Moves s := Relation.ReflTransGen.refl

/-- One run after another. -/
theorem State.Moves.trans (h : s.Moves t) (k : t.Moves u) : s.Moves u := Relation.ReflTransGen.trans h k

/-- One more move. -/
theorem State.Moves.tail (h : s.Moves t) (k : t.Move u) : s.Moves u := Relation.ReflTransGen.tail h k

/-- One move. -/
theorem State.Move.moves (h : s.Move t) : s.Moves t := Relation.ReflTransGen.single h

/-- An end after a run of moves is an end. -/
theorem State.Moves.ends {r : Result} (h : s.Moves t) (k : t.Ends r) : s.Ends r := by
  cases k with
  | done k => exact .done (h.trans k)
  | raised k why => exact .raised (h.trans k) why

/-- A completion after one move. -/
theorem State.Move.ends (h : s.Move t) : s.Ends (.next t) := .done h.moves

/-- A raise with no effect. -/
theorem State.ends_raise (why : StopReason) (s : State) : s.Ends (s.raise why) := .raised (.refl s) why

/-- A guarded rule raises, or runs with none of its checks applying. -/
theorem State.ends_guarded {checks : List (Bool × UnpredictableReason)} {r : Result}
    (h : firstApplying checks = none → s.Ends r) : s.Ends (s.guarded checks r) := by
  cases hc : firstApplying checks with
  | none => rw [State.guarded_pass hc]; exact h hc
  | some why => rw [State.guarded_raise hc]; exact s.ends_raise _

end

/-! ### Register writes -/

/-- Writes of listed registers are moves. -/
theorem State.moves_setRegs (rs : List RegNo) (vs : List Word) (s : State) : s.Moves (s.setRegs rs vs) := by
  induction rs generalizing vs s with
  | nil => exact .refl s
  | cons r rs ih =>
    cases vs with
    | nil => exact .refl s
    | cons v vs => exact (State.Move.setReg r v s).moves.trans (ih vs _)

/-- Writes of listed USR-mode registers are moves. -/
theorem State.moves_setUserRegs (rs : List RegNo) (vs : List Word) (s : State) : s.Moves (s.setUserRegs rs vs) := by
  induction rs generalizing vs s with
  | nil => exact .refl s
  | cons r rs ih =>
    cases vs with
    | nil => exact .refl s
    | cons v vs => exact (State.Move.setUserReg r v s).moves.trans (ih vs _)

/-- The write-back of a single transfer is a move or none. -/
theorem State.moves_writeBack (x : Index) (rn : RegNo) (v : Word) (s : State) : s.Moves (s.writeBack x rn v) := by
  unfold State.writeBack
  split
  · exact (State.Move.setReg rn v s).moves
  · exact .refl s

/-- The register writes of a block load are moves. -/
theorem State.moves_blockCommit (w : Bool) (rn : RegNo) (v : Word) (list : BitVec 16) (vs : List Word) (s : State) :
    s.Moves (s.blockCommit w rn v list vs) := by
  refine State.Moves.trans ?_ (State.moves_setRegs _ _ _)
  unfold State.blockWriteBack
  split
  · exact (State.Move.setReg rn v s).moves
  · exact .refl s

/-- The register writes of a single load are moves when the write of the loaded value is. -/
theorem State.moves_commitLoad {write : State → State} (h : ∀ t : State, t.Moves (write t)) (x : Index) (rn : RegNo)
    (v : Word) (s : State) : s.Moves (s.commitLoad x rn v write) := by
  unfold State.commitLoad
  split
  · exact (s.moves_writeBack x rn v).trans (h _)
  · exact (h s).trans (State.moves_writeBack x rn v _)

/-- Writes of listed registers keep CPSR and the configuration. -/
theorem State.setRegs_cpsr_cfg (rs : List RegNo) (vs : List Word) (s : State) :
    (s.setRegs rs vs).cpu.cpsr = s.cpu.cpsr ∧ (s.setRegs rs vs).cpu.cfg = s.cpu.cfg := by
  induction rs generalizing vs s with
  | nil => exact ⟨rfl, rfl⟩
  | cons r rs ih =>
    cases vs with
    | nil => exact ⟨rfl, rfl⟩
    | cons v vs =>
      obtain ⟨hc, hg⟩ := ih vs (s.setReg r v)
      exact ⟨hc.trans (State.setReg_cpsr r v s), hg.trans (State.setReg_cfg r v s)⟩

/-- The register writes of a block load keep CPSR and the configuration. -/
theorem State.blockCommit_cpsr_cfg (w : Bool) (rn : RegNo) (v : Word) (list : BitVec 16) (vs : List Word) (s : State) :
    (s.blockCommit w rn v list vs).cpu.cpsr = s.cpu.cpsr ∧ (s.blockCommit w rn v list vs).cpu.cfg = s.cpu.cfg := by
  obtain ⟨hc, hg⟩ := (s.blockWriteBack w rn v).setRegs_cpsr_cfg (listedRegs list) vs
  refine ⟨hc.trans ?_, hg.trans ?_⟩ <;> cases w <;> simp [State.blockWriteBack]

/-! ### Bus calls -/

/-- The state an access leaves. -/
def Access.state {α : Type} : Access α → State
  | .done _ s => s
  | .fault _ s => s

/-- An access does nothing but bus calls: moves that keep the stepping CPU. -/
def Access.Calls {α : Type} (s : State) (x : Access α) : Prop := s.Moves x.state ∧ x.state.cpu = s.cpu

section

variable {α β : Type} {s : State} {x : Access α}

/-- What is made of the value of an access calls the bus no more. -/
theorem Access.Calls.map (h : x.Calls s) (f : α → β) : (x.map f).Calls s := by
  cases x <;> exact h

/-- One access after another. -/
theorem Access.Calls.andThen {f : α → State → Access β} (h : x.Calls s) (hf : ∀ v t, (f v t).Calls t) :
    (x.andThen f).Calls s := by
  cases x with
  | fault a t => exact h
  | done v t => exact ⟨h.1.trans (hf v t).1, (hf v t).2.trans h.2⟩

/-- After an access an instruction goes on with the same stepping CPU, or raises the BusFault there (R107). -/
theorem Access.Calls.ends {k : α → State → Result} (h : x.Calls s)
    (hk : ∀ (v : α) (t : State), t.cpu = s.cpu → t.Ends (k v t)) : s.Ends (x.finish k) := by
  cases x with
  | fault a t => exact .raised h.1 _
  | done v t => exact h.1.ends (hk v t h.2)

/-- A bus read is one bus call. -/
theorem State.busRead32_calls (a : Word) (s : State) : (s.busRead32 a).Calls s := by
  cases h : s.busRead32 a with
  | done w t =>
    have hr := State.busRead32_done.1 h
    exact ⟨(State.Move.busRead hr).moves, hr.cpu⟩
  | fault x t =>
    unfold State.busRead32 at h
    split at h <;> cases h
    exact ⟨.refl s, rfl⟩

/-- A bus write is one bus call. -/
theorem State.busWrite32_calls (a v : Word) (s : State) : (s.busWrite32 a v).Calls s := by
  cases h : s.busWrite32 a v with
  | done u t =>
    have hw := State.busWrite32_done.1 h
    exact ⟨(State.Move.busWrite hw).moves, hw.cpu⟩
  | fault x t =>
    unfold State.busWrite32 at h
    split at h <;> cases h
    exact ⟨.refl s, rfl⟩

/-- Loads of words in order are bus calls (R471, R480). -/
theorem State.loadWords_calls (n : Nat) (a : Word) (s : State) : (s.loadWords n a).Calls s := by
  induction n generalizing a s with
  | zero => exact ⟨.refl s, rfl⟩
  | succ n ih => exact (s.busRead32_calls _).andThen fun v t => (ih _ t).map _

/-- Stores of words in order are bus calls (R471, R480). -/
theorem State.storeWords_calls (vs : List Word) (a : Word) (s : State) : (s.storeWords vs a).Calls s := by
  induction vs generalizing a s with
  | nil => exact ⟨.refl s, rfl⟩
  | cons v vs ih => exact (s.busWrite32_calls _ v).andThen fun _ t => ih _ t

/-- The access of a single load is bus calls. -/
theorem LsKind.load_calls (k : LsKind) (a : Word) (s : State) : (k.load a s).Calls s := by
  have hr := s.busRead32_calls (wordAlign a)
  cases k with
  | ldrb | ldrh | ldrsb | ldrsh => exact (hr.map _).map _
  | _ => exact hr.map _

/-- The access of a single store is bus calls. -/
theorem LsKind.store_calls (v : Word) (k : LsKind) (a : Word) (s : State) : (k.store v a s).Calls s := by
  cases k with
  | strb | strh => exact (s.busRead32_calls _).andThen fun _ t => t.busWrite32_calls _ _
  | _ => exact s.busWrite32_calls _ v

end

/-! ### Writes of the program counter -/

/-- A target that passes the checks of `pc <- target` is word aligned (R240). -/
theorem State.pcTarget_aligned {k : PcKind} {a t : Word} {s : State} (h : s.pcTarget k a = .ok t) :
    bits 0 2 t = 0#2 := by
  unfold State.pcTarget at h
  split at h
  · cases h
  split at h
  · next ha => cases h; exact ha
  split at h <;> cases h
  apply BitVec.eq_of_getLsbD_eq
  intro i hi
  interval_cases i <;> simp [bits, wordAlign]

/-- `pc <- target` as the last operation of a rule. -/
theorem State.ends_branchTo (k : PcKind) (t : Word) (s : State) : s.Ends (s.branchTo k t) := by
  unfold State.branchTo
  split
  · exact s.ends_raise _
  · next h => exact (State.Move.setPendingPC s (State.pcTarget_aligned h)).ends

/-- `pc <- target` with the link (R501, R504). -/
theorem State.ends_branchLink (k : PcKind) (t : Word) (s : State) : s.Ends (s.branchLink k t) := by
  unfold State.branchLink
  split
  · exact s.ends_raise _
  · next h => exact .done ((State.Move.setReg _ _ s).moves.tail (.setPendingPC _ (State.pcTarget_aligned h)))

/-! ### Writes of the status words -/

/-- A masked write keeps every bit outside a wider mask. -/
theorem masked_and_not (w v m p : Word) : ((w &&& ~~~(m &&& p)) ||| (v &&& (m &&& p))) &&& ~~~p = w &&& ~~~p := by
  apply BitVec.eq_of_getLsbD_eq
  intro i hi
  cases hp : p.getLsbD i <;> simp [hi, hp, -BitVec.getLsbD_eq_getElem]

/-- A masked write keeps the mode when its mask does not meet the mode field. -/
theorem modeField_masked {w v m : Word} (h : modeField m = 0#5) :
    modeField ((w &&& ~~~m) ||| (v &&& m)) = modeField w := by
  apply BitVec.eq_of_getLsbD_eq
  intro i hi
  have hm := congrArg (BitVec.getLsbD · i) h
  simp only [modeField, bits, BitVec.getLsbD_extractLsb', hi, decide_true, Bool.true_and, Nat.zero_add,
    BitVec.getLsbD_zero] at hm
  simp [modeField, bits, hi, hm, show i < 32 by omega, -BitVec.getLsbD_eq_getElem]

/-- In USR mode the mask of MSR does not meet the mode (R536). -/
theorem State.modeField_cpsrMask {fm : BitVec 4} {s : State} (h : privileged s.mode = false) :
    modeField (s.cpsrMask fm .msr) = 0#5 := by
  rw [State.cpsrMask, if_pos ⟨rfl, h⟩]
  cases s.variant <;> revert fm <;> decide

/-- A mode with an SPSR is privileged (R32). -/
theorem privileged_of_hasSpsr {m : BitVec 5} (h : hasSpsr m = true) : privileged m = true := by
  revert m; decide

/-- The word that passes the checks of `CPSRWrite` is the masked one, with T as it was (R536). -/
theorem State.cpsrCheck_ok {v new : Word} {fm : BitVec 4} {k : PsrWriteKind} {s : State}
    (h : s.cpsrCheck v fm k = .ok new) : new = s.cpsrNew v fm k ∧ flagT new = flagT s.cpu.cpsr := by
  simp only [State.cpsrCheck] at h
  split at h
  · next hT =>
    split at h <;> cases h
    exact ⟨rfl, hT⟩
  · split at h <;> cases h

/-- A word that passes the checks of `CPSRWrite` may be written to CPSR, in any state with the same CPSR and variant. -/
theorem State.move_putCpsr {v new : Word} {fm : BitVec 4} {k : PsrWriteKind} {s t : State}
    (h : s.cpsrCheck v fm k = .ok new) (hk : k = .msr ∨ privileged s.mode = true) (hc : t.cpu.cpsr = s.cpu.cpsr)
    (hv : t.cpu.cfg = s.cpu.cfg) : t.Move (t.putCpsr new) := by
  obtain ⟨hnew, hT⟩ := State.cpsrCheck_ok h
  have hvar : t.variant = s.variant := by rw [State.variant, State.variant, hv]
  have hmode : t.mode = s.mode := by rw [State.mode, State.mode, hc]
  refine .putCpsr (hT.trans (congrArg flagT hc.symm)) ?_ fun hp => ?_
  · rw [hnew, hvar, hc]
    exact masked_and_not _ _ _ _
  · rw [hmode] at hp ⊢
    rcases hk with rfl | hk
    · rw [hnew]; exact modeField_masked (State.modeField_cpsrMask hp)
    · rw [hk] at hp; cases hp

/-- MSR of either status word (R532, R533). -/
theorem State.ends_msrWrite (r : Psr) (fm : BitVec 4) (v : Word) (s : State) : s.Ends (s.msrWrite r fm v) := by
  cases r with
  | cpsr =>
    change s.Ends (s.cpsrWrite v fm)
    unfold State.cpsrWrite
    split
    · exact s.ends_raise _
    · next h => exact (State.move_putCpsr h (.inl rfl) rfl rfl).ends
  | spsr =>
    change s.Ends (s.spsrWrite v fm)
    unfold State.spsrWrite
    split
    · exact (State.Move.putSpsr (masked_and_not _ _ _ _)).ends
    · exact s.ends_raise _

/-- A return from an exception in a mode with an SPSR, over register writes that keep CPSR (R305, R478). -/
theorem State.ends_exceptionReturn {target : Word} {before : State → State} {s : State} (hs : hasSpsr s.mode = true)
    (hb : s.Moves (before s)) (hc : (before s).cpu.cpsr = s.cpu.cpsr ∧ (before s).cpu.cfg = s.cpu.cfg) :
    s.Ends (s.exceptionReturn target before) := by
  unfold State.exceptionReturn
  split
  · exact s.ends_raise _
  split
  · exact s.ends_raise _
  · next hnew _ _ ht =>
    have hmove := State.move_putCpsr hnew (.inr (privileged_of_hasSpsr hs)) hc.1 hc.2
    exact .done ((hb.tail hmove).tail (.setPendingPC _ (State.pcTarget_aligned ht)))

/-- An exception, refused or entered (R590, R591, R600). -/
theorem State.ends_exceptionOr (k : Exception) (why : UnsupportedReason) (s : State) :
    s.Ends (s.exceptionOr k why) := by
  unfold State.exceptionOr
  split
  · exact s.ends_raise _
  · next h => exact (State.Move.enterException k h).ends

/-! ### The shared operations of the instructions -/

/-- `DPWriteResult` (R305). -/
theorem State.ends_dpWrite (sf : Bool) (rd : RegNo) (r : Word) (c v : Bool) (s : State) :
    s.Ends (s.dpWrite sf rd r c v) := by
  unfold State.dpWrite
  split
  · split
    · split
      · next hs => exact State.ends_exceptionReturn hs (.refl s) ⟨rfl, rfl⟩
      · exact s.ends_raise _
    · exact s.ends_branchTo _ _
  · split
    · exact .done ((State.Move.setReg rd r s).moves.tail (.setNZCV _ _ _ _ _))
    · exact (State.Move.setReg rd r s).ends

/-- The flags of a result alone (R306). -/
theorem State.ends_setResultFlags (r : Word) (c v : Bool) (s : State) : s.Ends (.next (s.setResultFlags r c v)) :=
  (State.Move.setNZCV _ _ _ _ s).ends

/-- The end of MUL and MLA (R352). -/
theorem State.ends_mulWrite (sf : Bool) (rd : RegNo) (r : Word) (s : State) : s.Ends (s.mulWrite sf rd r) := by
  have hreg := (State.Move.setReg rd r s).moves
  refine .done ?_
  split
  · unfold State.mulFlags
    split
    · exact (hreg.tail (.setNZCV _ _ _ _ _)).tail (.draw 1 _)
    · exact hreg.tail (.setNZCV _ _ _ _ _)
  · exact hreg

/-- The register pair of a long multiply. -/
theorem State.moves_setPair (hi lo : RegNo) (r : BitVec 64) (s : State) : s.Moves (s.setPair hi lo r) :=
  (State.Move.setReg lo _ s).moves.tail (.setReg hi _ _)

/-- The end of a long multiply (R352). -/
theorem State.ends_longWrite (sf : Bool) (hi lo : RegNo) (r : BitVec 64) (s : State) :
    s.Ends (s.longWrite sf hi lo r) := by
  have hpair := s.moves_setPair hi lo r
  refine .done ?_
  split
  · unfold State.longFlags
    split
    · exact (hpair.tail (.setNZCV _ _ _ _ _)).tail (.draw 2 _)
    · exact hpair.tail (.setNZCV _ _ _ _ _)
  · exact hpair

/-- A register and Q: the accumulating and the saturating rules (R360, R561). -/
theorem State.ends_setReg_stickQ (rd : RegNo) (r : Word) (q : Bool) (s : State) :
    s.Ends (.next ((s.setReg rd r).stickQ q)) :=
  .done ((State.Move.setReg rd r s).moves.tail (.stickQ q _))

/-- A load of one register (R403). -/
theorem State.ends_loadTransfer (checks : List (Bool × UnpredictableReason)) (x : Index) (rn rd : RegNo) (o : Offset)
    (k : LsKind) (s : State) : s.Ends (s.loadTransfer checks x rn rd o k.load) :=
  State.ends_guarded fun _ => (k.load_calls _ s).ends fun v t _ =>
    .done (t.moves_commitLoad (fun u => (State.Move.setReg rd v u).moves) x rn _)

/-- A store of one register (R403). -/
theorem State.ends_storeTransfer (checks : List (Bool × UnpredictableReason)) (x : Index) (rn : RegNo) (o : Offset)
    (k : LsKind) (v : Word) (s : State) : s.Ends (s.storeTransfer checks x rn o (k.store v)) :=
  State.ends_guarded fun _ => (k.store_calls v _ s).ends fun _ t _ => .done (t.moves_writeBack x rn _)

/-- LDR with Rd = 15 (R407). -/
theorem State.ends_loadPcTransfer (checks : List (Bool × UnpredictableReason)) (x : Index) (rn : RegNo) (o : Offset)
    (s : State) : s.Ends (s.loadPcTransfer checks x rn o) := by
  refine State.ends_guarded fun _ => (s.busRead32_calls _).ends fun v t _ => ?_
  split
  · exact t.ends_raise _
  · next h =>
    exact .done (t.moves_commitLoad (fun u => (State.Move.setPendingPC u (State.pcTarget_aligned h)).moves) x rn _)

/-- A single load or store by its form. -/
theorem LsForm.ends_run (f : LsForm) (s : State) : s.Ends (f.run s) := by
  obtain ⟨k, x, rn, rd, o⟩ := f
  cases k with
  | ldr =>
    change s.Ends (s.loadWordForm x rn rd o)
    unfold State.loadWordForm
    split
    · exact s.ends_loadPcTransfer _ x rn o
    · exact s.ends_loadTransfer _ x rn rd o .ldr
  | ldrt | ldrb | ldrh | ldrsb | ldrsh => exact s.ends_loadTransfer _ x rn rd o _
  | str | strb | strh => exact s.ends_storeTransfer _ x rn o _ _
  | ldrd =>
    exact State.ends_guarded fun _ => (s.busRead32_calls _).ends fun v t _ =>
      (t.busRead32_calls _).ends fun w u _ =>
        .done (u.moves_commitLoad (fun z => (State.Move.setReg _ v z).moves.tail (.setReg _ w _)) x rn _)
  | strd =>
    exact State.ends_guarded fun _ => (s.busWrite32_calls _ _).ends fun _ t _ =>
      (t.busWrite32_calls _ _).ends fun _ u _ => .done (u.moves_writeBack x rn _)

/-- SWP and SWPB (R450, R451). -/
theorem State.ends_swapForm (rn rd rm : RegNo) (k l : LsKind) (v : Word) (s : State) :
    s.Ends (s.swapForm rn rd rm k.load (l.store v)) :=
  State.ends_guarded fun _ => (k.load_calls _ s).ends fun w t _ => (l.store_calls v _ t).ends fun _ u _ =>
    (State.Move.setReg rd w u).ends

/-- LDM (R473). -/
theorem ends_execLdm (p u w : Bool) (rn : RegNo) (list : BitVec 16) (s : State) : s.Ends (execLdm p u w rn list s) := by
  refine State.ends_guarded fun _ => (s.loadWords_calls _ _).ends fun vs t _ => ?_
  have hregs := t.moves_blockCommit w rn (blockEnd u (s.reg rn) list) list vs
  split
  · split
    · exact t.ends_raise _
    · next h => exact .done (hregs.tail (.setPendingPC _ (State.pcTarget_aligned h)))
  · exact .done hregs

/-- LDM of user registers (R477). -/
theorem ends_execLdmUser (p u w : Bool) (rn : RegNo) (low : BitVec 15) (s : State) :
    s.Ends (execLdmUser p u w rn low s) :=
  State.ends_guarded fun _ => (s.loadWords_calls _ _).ends fun vs t _ => .done (t.moves_setUserRegs _ vs)

/-- LDM exception return (R478): its last check leaves a mode with an SPSR. -/
theorem ends_execLdmReturn (p u w : Bool) (rn : RegNo) (low : BitVec 15) (s : State) :
    s.Ends (execLdmReturn p u w rn low s) := by
  refine State.ends_guarded fun hc => (s.loadWords_calls _ _).ends fun vs t ht => ?_
  have hs : hasSpsr s.mode = true := by
    simpa using firstApplying_none.1 hc (!hasSpsr s.mode, .noSPSR) (by simp)
  rw [State.mode, ← ht] at hs
  exact State.ends_exceptionReturn hs (t.moves_blockCommit _ _ _ _ _) (t.blockCommit_cpsr_cfg _ _ _ _ _)

/-- STM (R475). -/
theorem ends_execStm (p u w : Bool) (rn : RegNo) (list : BitVec 16) (s : State) : s.Ends (execStm p u w rn list s) := by
  refine State.ends_guarded fun _ => (s.storeWords_calls _ _).ends fun _ t _ => .done ?_
  unfold State.blockWriteBack
  split
  · exact (State.Move.setReg rn _ t).moves
  · exact .refl t

/-- STM of user registers (R479). -/
theorem ends_execStmUser (p u w : Bool) (rn : RegNo) (list : BitVec 16) (s : State) :
    s.Ends (execStmUser p u w rn list s) :=
  State.ends_guarded fun _ => (s.storeWords_calls _ _).ends fun _ t _ => .done (.refl t)

/-- A word with cond = 1111 on `v4` (R602). -/
theorem ends_execNvV4 (w : Word) (s : State) : s.Ends (execNvV4 w s) := by
  unfold execNvV4
  split
  · exact s.ends_raise _
  · exact .done (.refl s)

/-! ### Every instruction -/

/-- Every instruction, in every state, makes a run of moves and then completes or raises (R230). -/
theorem exec_ends (i : Instr) (s : State) : s.Ends (exec i s) := by
  cases i with
  | andImm | andImmShift | eorImm | eorImmShift | subImm | subImmShift | rsbImm | rsbImmShift | addImm | addImmShift
  | adcImm | adcImmShift | sbcImm | sbcImmShift | rscImm | rscImmShift | orrImm | orrImmShift | movImm | movImmShift
  | bicImm | bicImmShift | mvnImm | mvnImmShift => exact s.ends_dpWrite _ _ _ _ _
  | andRegShift | eorRegShift | subRegShift | rsbRegShift | addRegShift | adcRegShift | sbcRegShift | rscRegShift
  | orrRegShift | movRegShift | bicRegShift | mvnRegShift => exact State.ends_guarded fun _ => s.ends_dpWrite _ _ _ _ _
  | tstImm | tstImmShift | teqImm | teqImmShift | cmpImm | cmpImmShift | cmnImm | cmnImmShift =>
    exact s.ends_setResultFlags _ _ _
  | tstRegShift | teqRegShift | cmpRegShift | cmnRegShift =>
    exact State.ends_guarded fun _ => s.ends_setResultFlags _ _ _
  | mul | mla => exact State.ends_guarded fun _ => s.ends_mulWrite _ _ _
  | umull | umlal | smull | smlal => exact State.ends_guarded fun _ => s.ends_longWrite _ _ _ _
  | smlaxy | smlawy | qadd | qsub | qdadd | qdsub => exact State.ends_guarded fun _ => s.ends_setReg_stickQ _ _ _
  | smulxy | smulwy | clz | mrs => exact State.ends_guarded fun _ => (State.Move.setReg _ _ s).ends
  | smlalxy => exact State.ends_guarded fun _ => .done (s.moves_setPair _ _ _)
  | swp => exact s.ends_swapForm _ _ _ .ldr .str _
  | swpb => exact s.ends_swapForm _ _ _ .ldrb .strb _
  | strhImm | strhReg | ldrhImm | ldrhReg | ldrsbImm | ldrsbReg | ldrshImm | ldrshReg | ldrdImm | ldrdReg | strdImm
  | strdReg | ldrImm | ldrImmPost | ldrReg | ldrRegPost | ldrtImm | ldrtReg | ldrbImm | ldrbImmPost | ldrbReg
  | ldrbRegPost | ldrbtImm | ldrbtReg | strImm | strImmPost | strReg | strRegPost | strtImm | strtReg | strbImm
  | strbImmPost | strbReg | strbRegPost | strbtImm | strbtReg => rw [exec_eq_run rfl]; exact LsForm.ends_run _ s
  | ldm => exact ends_execLdm _ _ _ _ _ s
  | ldmUser => exact ends_execLdmUser _ _ _ _ _ s
  | ldmReturn => exact ends_execLdmReturn _ _ _ _ _ s
  | stm => exact ends_execStm _ _ _ _ _ s
  | stmUser => exact ends_execStmUser _ _ _ _ _ s
  | b | bx => exact s.ends_branchTo _ _
  | bl => exact s.ends_branchLink _ _
  | blxReg => exact State.ends_guarded fun _ => s.ends_branchLink _ _
  | msrImm => exact s.ends_msrWrite _ _ _
  | msrReg => exact State.ends_guarded fun _ => s.ends_msrWrite _ _ _
  | swi | undefMedia | undefMsrImm | undefMul | undefSwap21 | undefSwap20 | undefSwap23 | undefMisc =>
    exact s.ends_exceptionOr _ _
  | bkpt => exact State.ends_guarded fun _ => s.ends_exceptionOr _ _
  | pldImm | pldReg => exact .done (.refl s)
  | nvV4 w => exact ends_execNvV4 w s
  | cdp | mcr | mrc | stcV4 | ldcV4 | stcPre | stcPostUp | stcPostDown | stcPostDownLong | ldcPre | ldcPostUp
  | ldcPostDown | ldcPostDownLong | mcrr | mrrc | cdp2 | mcr2 | mrc2 | stc2 | ldc2 | blxImm | unpredLsx10 | unpredLsx11
  | unpredUncond =>
    exact s.ends_raise _

end Sys2Proof.Machine
end

section
/-! SUPPORT. The banks (R34 to R40): what the registers and SPSRs of every mode read as after a save (R36),
what a load (R37) makes of them, and the switches of mode, which keep them all. -/

namespace Sys2Proof.Machine

open Sys2Proof.Config

section

variable {m m' : BitVec 5} {i : Nat} {b : BankId}

/-! ### Slots -/

/-- The registers in the bank `F` (R35). -/
theorem physBank_eq_fiq : physBank m i = .fiq ↔ bankOf m = .fiq ∧ 8 ≤ i := by
  unfold physBank
  cases bankOf m <;> simp <;> split <;> simp

/-- The registers in a bank `B_M` (R35). -/
theorem physBank_eq_priv (hu : b ≠ .usr) (hf : b ≠ .fiq) : physBank m i = b ↔ bankOf m = b ∧ 13 ≤ i := by
  unfold physBank
  by_cases hi : 13 ≤ i
  · cases bankOf m <;> simp [hi, hu.symm, hf.symm, apply_ite (· = b)]
  · cases bankOf m <;> simp [hi, hu.symm, hf.symm, apply_ite (· = b)]

/-- The modes with an SPSR are those with a bank of their own (R32, R35). -/
theorem hasSpsr_iff_bankOf : hasSpsr m = true ↔ bankOf m ≠ .usr := by
  revert m; decide

end

section

variable (m m' : BitVec 5) (i : Fin 15) (c : Cpu)

/-- What the banks hold of a register depends on its slot alone. -/
theorem Banks.read_congr {m m' : BitVec 5} {i : Fin 15} (h : physBank m i.val = physBank m' i.val) (b : Banks) :
    b.read m i = b.read m' i := by
  unfold Banks.read; rw [h]

/-- What the banks hold of an SPSR depends on the mode's bank alone. -/
theorem Banks.spsr_congr {m m' : BitVec 5} (h : bankOf m = bankOf m') (b : Banks) : b.spsr m = b.spsr m' := by
  unfold Banks.spsr; rw [h]

/-! ### Saving and loading a bank (R36, R37) -/

/-- A save keeps `cfg`. -/
@[simp] theorem Cpu.cfg_saveBank : (c.saveBank m).cfg = c.cfg := by simp only [Cpu.saveBank]

/-- A save keeps `cpsr`. -/
@[simp] theorem Cpu.cpsr_saveBank : (c.saveBank m).cpsr = c.cpsr := by simp only [Cpu.saveBank]

/-- A save keeps the live registers. -/
@[simp] theorem Cpu.r_saveBank : (c.saveBank m).r = c.r := by simp only [Cpu.saveBank]

/-- A save keeps the live SPSR. -/
@[simp] theorem Cpu.spsr_saveBank : (c.saveBank m).spsr = c.spsr := by simp only [Cpu.saveBank]

/-- A load keeps `cfg`. -/
@[simp] theorem Cpu.cfg_loadBank : (c.loadBank m).cfg = c.cfg := by simp only [Cpu.loadBank]

/-- A load keeps the banks. -/
@[simp] theorem Cpu.banks_loadBank : (c.loadBank m).banks = c.banks := by simp only [Cpu.loadBank]

/-- After a save of `m` a slot that `m` uses holds the live register, every other what it held (R36). -/
theorem Cpu.read_saveBank : (c.saveBank m).banks.read m' i =
    if physBank m' i.val = physBank m i.val then c.r[i.val] else c.banks.read m' i := by
  unfold Banks.read
  cases hb : physBank m' i.val with
  | usr => simp [Cpu.saveBank, eq_comm]
  | fiq =>
    have h8 := (physBank_eq_fiq.1 hb).2
    have h7 : i.val - 8 < 7 := by omega
    by_cases hm : bankOf m = .fiq <;>
      simp [Cpu.saveBank, eq_comm (a := BankId.fiq), physBank_eq_fiq, hm, h8, h7]
  | irq | svc | abt | und =>
    obtain ⟨hm', h13⟩ := (physBank_eq_priv (by decide) (by decide)).1 hb
    obtain rfl | rfl : i = 13 ∨ i = 14 := by omega
    all_goals
      by_cases hm : bankOf m = bankOf m' <;> rw [hm'] at hm <;>
        simp [Cpu.saveBank, Cpu.savePriv, eq_comm (b := physBank m _), physBank_eq_priv, hm]

/-- After a save of `m` the SPSR of the mode's own bank is the live one, every other what it was (R36). -/
theorem Cpu.bankSpsr_saveBank {m' : BitVec 5} (h : bankOf m' ≠ .usr) : (c.saveBank m).banks.spsr m' =
    if bankOf m' = bankOf m then some c.spsr else c.banks.spsr m' := by
  unfold Banks.spsr
  cases hb : bankOf m' with
  | usr => exact absurd hb h
  | fiq | irq | svc | abt | und =>
    simp only [Cpu.saveBank, Cpu.savePriv, beq_iff_eq, eq_comm (a := bankOf m)]
    split <;> rfl

/-- A mode without a bank of its own has no SPSR (R35). -/
theorem Banks.spsr_usr {m : BitVec 5} (h : bankOf m = .usr) (b : Banks) : b.spsr m = none := by
  unfold Banks.spsr; rw [h]

/-- A register after a load of `m` (R37). -/
theorem Cpu.r_loadBank : (c.loadBank m).r[i.val] = c.banks.read m i := by
  simp [Cpu.loadBank]

/-- A load does not touch r15 (R37). -/
theorem Cpu.r15_loadBank : (c.loadBank m).r[15] = c.r[15] := by
  simp [Cpu.loadBank]

/-- The SPSR after a load of `m`, when the mode has one (R37). -/
theorem Cpu.spsr_loadBank {m : BitVec 5} (h : bankOf m ≠ .usr) : some (c.loadBank m).spsr = c.banks.spsr m := by
  change some ((c.banks.spsr m).getD c.spsr) = c.banks.spsr m
  unfold Banks.spsr
  cases hb : bankOf m with
  | usr => exact absurd hb h
  | fiq | irq | svc | abt | und => rfl

/-- A load keeps the live SPSR when the mode has none (R37). -/
theorem Cpu.spsr_loadBank_usr {m : BitVec 5} (h : bankOf m = .usr) : (c.loadBank m).spsr = c.spsr := by
  change (c.banks.spsr m).getD c.spsr = c.spsr
  rw [Banks.spsr_usr h, Option.getD_none]

/-- The registers come back from a load after a save (R40). -/
theorem Cpu.r_loadBank_saveBank : ((c.saveBank m).loadBank m).r = c.r := by
  apply Vector.ext
  intro k hk
  by_cases h : k < 15
  · have hread := Cpu.r_loadBank m ⟨k, h⟩ (c.saveBank m)
    rwa [Cpu.read_saveBank, if_pos rfl] at hread
  · obtain rfl : k = 15 := by omega
    rw [Cpu.r15_loadBank, Cpu.r_saveBank]

/-- The SPSR comes back from a load after a save (R40). -/
theorem Cpu.spsr_loadBank_saveBank : ((c.saveBank m).loadBank m).spsr = c.spsr := by
  by_cases h : bankOf m = .usr
  · rw [Cpu.spsr_loadBank_usr _ h, Cpu.spsr_saveBank]
  · rw [← Option.some_inj, Cpu.spsr_loadBank _ h, Cpu.bankSpsr_saveBank m c h, if_pos rfl]

/-! ### Views of a mode -/

/-- The value of a register of a mode is what the banks hold of it after a save of the current mode (R39). -/
theorem Cpu.view_eq_read : c.view m i = (c.saveBank (modeField c.cpsr)).banks.read m i :=
  (Cpu.read_saveBank _ m i c).symm

/-- The SPSR of a mode that has one is what the banks hold of it after a save of the current mode (R39). -/
theorem Cpu.spsrView_eq_spsr : c.spsrView m =
    if hasSpsr m then (c.saveBank (modeField c.cpsr)).banks.spsr m else none := by
  unfold Cpu.spsrView
  by_cases h : hasSpsr m = true
  · rw [if_pos h, if_pos h, Cpu.bankSpsr_saveBank _ c (hasSpsr_iff_bankOf.1 h)]
  · rw [if_neg h, if_neg h]

/-! ### Switches -/

variable (new : Word)

/-- A switch leaves the new status word. -/
@[simp] theorem Cpu.cpsr_switchTo : (c.switchTo new).cpsr = new := by
  simp only [Cpu.switchTo, Cpu.loadBank, Cpu.saveBank]

/-- A switch keeps `cfg`. -/
@[simp] theorem Cpu.cfg_switchTo : (c.switchTo new).cfg = c.cfg := by
  simp only [Cpu.switchTo, Cpu.loadBank, Cpu.saveBank]

/-- A switch keeps `bus`. -/
@[simp] theorem Cpu.bus_switchTo : (c.switchTo new).bus = c.bus := by
  simp only [Cpu.switchTo, Cpu.loadBank, Cpu.saveBank]

/-- A switch keeps `pc`. -/
@[simp] theorem Cpu.pc_switchTo : (c.switchTo new).pc = c.pc := by simp only [Cpu.switchTo, Cpu.loadBank, Cpu.saveBank]

/-- A switch keeps `pcNext`. -/
@[simp] theorem Cpu.pcNext_switchTo : (c.switchTo new).pcNext = c.pcNext := by
  simp only [Cpu.switchTo, Cpu.loadBank, Cpu.saveBank]

/-- A switch keeps `pendingPC`. -/
@[simp] theorem Cpu.pendingPC_switchTo : (c.switchTo new).pendingPC = c.pendingPC := by
  simp only [Cpu.switchTo, Cpu.loadBank, Cpu.saveBank]

/-- A switch keeps `tick`. -/
@[simp] theorem Cpu.tick_switchTo : (c.switchTo new).tick = c.tick := by
  simp only [Cpu.switchTo, Cpu.loadBank, Cpu.saveBank]

/-- A switch keeps `started`. -/
@[simp] theorem Cpu.started_switchTo : (c.switchTo new).started = c.started := by
  simp only [Cpu.switchTo, Cpu.loadBank, Cpu.saveBank]

/-- A switch keeps `halted`. -/
@[simp] theorem Cpu.halted_switchTo : (c.switchTo new).halted = c.halted := by
  simp only [Cpu.switchTo, Cpu.loadBank, Cpu.saveBank]

/-- A switch keeps `irq`. -/
@[simp] theorem Cpu.irq_switchTo : (c.switchTo new).irq = c.irq := by
  simp only [Cpu.switchTo, Cpu.loadBank, Cpu.saveBank]

/-- A switch keeps `fiq`. -/
@[simp] theorem Cpu.fiq_switchTo : (c.switchTo new).fiq = c.fiq := by
  simp only [Cpu.switchTo, Cpu.loadBank, Cpu.saveBank]

/-- A switch keeps r15. -/
@[simp] theorem Cpu.r15_switchTo : (c.switchTo new).r[15] = c.r[15] := by
  simp [Cpu.switchTo, Cpu.r15_loadBank, Cpu.saveBank]

/-- The banks after a switch are those after the save of the old mode (R38). -/
theorem Cpu.banks_switchTo : (c.switchTo new).banks = (c.saveBank (modeField c.cpsr)).banks := by
  simp only [Cpu.switchTo, Cpu.loadBank]

/-- A register after a switch is what the new mode loads (R38). -/
theorem Cpu.r_switchTo :
    (c.switchTo new).r[i.val] = (c.saveBank (modeField c.cpsr)).banks.read (modeField new) i := by
  rw [Cpu.switchTo, Cpu.r_loadBank]

/-- The SPSR after a switch to a mode that has one is what that mode loads (R38). -/
theorem Cpu.spsr_switchTo {new : Word} (h : bankOf (modeField new) ≠ .usr) :
    some (c.switchTo new).spsr = (c.saveBank (modeField c.cpsr)).banks.spsr (modeField new) := by
  rw [Cpu.switchTo, Cpu.spsr_loadBank _ h]

/-- A switch keeps the value of every register of every mode (R38, R39). -/
theorem Cpu.view_switchTo : (c.switchTo new).view m i = c.view m i := by
  rw [Cpu.view_eq_read m i c, Cpu.view, Cpu.cpsr_switchTo, Cpu.banks_switchTo]
  split
  · next h => rw [Cpu.r_switchTo, Banks.read_congr h]
  · rfl

/-- A switch keeps the SPSR of every mode (R38, R39). -/
theorem Cpu.spsrView_switchTo : (c.switchTo new).spsrView m = c.spsrView m := by
  rw [Cpu.spsrView_eq_spsr m c, Cpu.spsrView, Cpu.cpsr_switchTo, Cpu.banks_switchTo]
  split
  · next hm =>
    split
    · next h => rw [Cpu.spsr_switchTo c (h ▸ hasSpsr_iff_bankOf.1 hm), Banks.spsr_congr h]
    · rfl
  · rfl

end

/-- Settles O47: what the banks hold after a save is each mode's view, which a load reads back. -/
theorem bankRoundTrip : Obligations.BankRoundTrip :=
  ⟨fun m c => ⟨c.r_loadBank_saveBank m, c.spsr_loadBank_saveBank m⟩,
    fun new c => ⟨c.cpsr_switchTo new, c.r15_switchTo new, fun m i => c.view_switchTo m i new,
      fun m => c.spsrView_switchTo m new⟩⟩

end Sys2Proof.Machine
end

section
/-! SUPPORT. A step of one CPU (R230) and a move of the Clock (R671, R678), said once: the first is the end of a run of
moves, retired; the second changes of the CPUs only the ticks. -/

namespace Sys2Proof.Machine

open Sys2Proof.Config

/-! ### The program counter -/

/-- What `setPC(a)` leaves (R46, R47). -/
theorem Cpu.setPC_eq (a : Word) (c : Cpu) :
    c.setPC a = { c with pc := a, pcNext := a + 4#32, r := c.r.set 15 (a + 8#32), started := true } := by
  simp [Cpu.setPC, Cpu.prefetch]

/-! ### A step of one CPU -/

/-- Interrupts are taken under EXC_MODEL = architectural alone (R643). -/
theorem State.excModel_of_interruptDue {s : State} {k : Exception} (h : s.interruptDue = some k) :
    s.params.excModel = .architectural := by
  unfold State.interruptDue at h
  split at h
  · cases h
  · assumption

/-- The instruction of a fetched word ends, and so does a word whose condition fails (R234). -/
theorem State.ends_runWord (word : Word) (s : State) : s.Ends (s.runWord word) := by
  unfold State.runWord
  split
  · exact exec_ends _ s
  · exact .done (.refl s)

/-- A step of a CPU is an end, retired at some cost: of an interrupt entry, of a fetch that faults, or of the
instruction fetched (R230). -/
theorem State.cpuStep_ends (s : State) : ∃ cost r, s.clearPending.Ends r ∧ s.cpuStep = retireResult cost r := by
  have hfetch : s.clearPending.fetch.Calls s.clearPending := State.busRead32_calls _ _
  simp only [State.cpuStep]
  split
  · next k h => exact ⟨s.divider, _, (State.Move.enterException k (State.excModel_of_interruptDue h)).ends, rfl⟩
  split
  · next a s1 h =>
    rw [h] at hfetch
    exact ⟨s.divider, _, .raised hfetch.1 (.busFault a), rfl⟩
  · next word s1 h =>
    rw [h] at hfetch
    exact ⟨s1.stepCost word, _, hfetch.1.ends (s1.ends_runWord word), rfl⟩

/-- The CPU whose turn it is is started and not halted (R47, R236). -/
theorem State.alive_of_turn {s : State} {id : CpuId} (h : s.turn = some id) :
    (s.cpuOf id).started = true ∧ (s.cpuOf id).halted = none := by
  have halive : (s.cpuOf id).alive = true := by
    unfold State.turn at h
    split at h
    · unfold State.clockTurn at h
      split at h
      · split at h <;> cases h
        next hrun => exact (Bool.and_eq_true_iff.1 hrun).1
      · cases h
    · unfold State.anyTurn at h
      split at h <;> cases h
      · split <;> assumption
      · assumption
      · assumption
  simpa [Cpu.alive] using halive

/-! ### A move of the Clock -/

/-- Of the CPUs only the ticks differ; memory, the delegate calls, the parameters and the session are as before. -/
def OnlyTicks (s t : State) : Prop :=
  (∀ id, t.cpuOf id = { s.cpuOf id with tick := (t.cpuOf id).tick }) ∧ t.mem = s.mem ∧ t.events = s.events ∧
    t.params = s.params ∧ t.session = s.session

/-- Nothing changed. -/
theorem OnlyTicks.refl (s : State) : OnlyTicks s s := ⟨fun _ => rfl, rfl, rfl, rfl, rfl⟩

/-- One such change after another. -/
theorem OnlyTicks.trans {s t u : State} (h : OnlyTicks s t) (k : OnlyTicks t u) : OnlyTicks s u := by
  obtain ⟨hc, hm, he, hp, hs⟩ := h
  obtain ⟨kc, km, ke, kp, ks⟩ := k
  exact ⟨fun id => by rw [kc id, hc id], km.trans hm, ke.trans he, kp.trans hp, ks.trans hs⟩

/-- The tick of one CPU set. -/
theorem OnlyTicks.putTick (id : CpuId) (x : Int) (s : State) :
    OnlyTicks s (s.putCpu id { s.cpuOf id with tick := x }) :=
  ⟨fun k => by cases id <;> cases k <;> rfl, by simp, by simp, by simp, by simp⟩

/-- The ticks of registered CPUs rebased (R676). -/
theorem OnlyTicks.rebaseMasters (d : Int) (ms : List Master) (s : State) :
    OnlyTicks s (ms.foldl (State.rebaseMaster d) s) := by
  induction ms generalizing s with
  | nil => exact .refl s
  | cons m ms ih =>
    refine OnlyTicks.trans ?_ (ih _)
    cases m with
    | cpu id => exact .putTick id _ s
    | device => exact .refl s

/-- A turn of a pass in which no CPU steps (R671). -/
theorem OnlyTicks.passTurn (goal : Int) (k : Nat) (reached : List Int) (s : State) :
    OnlyTicks s (s.passTurn goal k reached) := by
  unfold State.passTurn
  split
  · exact .refl s
  · exact OnlyTicks.putTick _ _ s
  · exact .refl s

/-- A move of the Clock or of the frame loop (R671, R678). -/
theorem OnlyTicks.clockStep (s : State) : OnlyTicks s s.clockStep := by
  unfold State.clockStep
  split
  · exact .refl s
  split
  · exact .refl s
  · exact .passTurn _ _ _ s
  · exact .rebaseMasters _ s.clock.masters s

end Sys2Proof.Machine
end

section
/-! SUPPORT. The invariant of the block through a step: the condition between two moves of an instruction, that every
move keeps it, and that the end of a step takes it back to the invariant. -/

namespace Sys2Proof.Machine

open Sys2Proof.Config

/-! ### Status words -/

/-- Words that agree outside bits that may be set have the same reserved bits (R51). -/
theorem psrOk_congr {v : Variant} {w w' m : Word} (hm : m &&& ~~~psrMask v = ~~~psrMask v) (h : w' &&& m = w &&& m) :
    psrOk v w' = psrOk v w := by
  unfold psrOk
  rw [← hm, ← BitVec.and_assoc, h, BitVec.and_assoc]

/-- Bits joined outside a mask do not change what the mask takes. -/
theorem or_and_of_disjoint {x m : Word} (h : x &&& m = 0#32) (w : Word) : (w ||| x) &&& m = w &&& m := by
  apply BitVec.eq_of_getLsbD_eq
  intro i hi
  have hbit := congrArg (BitVec.getLsbD · i) h
  simp only [BitVec.getLsbD_and, BitVec.getLsbD_zero] at hbit
  rw [BitVec.getLsbD_and, BitVec.getLsbD_or, Bool.and_or_distrib_right, hbit, Bool.or_false, BitVec.getLsbD_and]

/-- Bits cleared outside a mask do not change what the mask takes. -/
theorem and_not_and_of_disjoint {x m : Word} (h : x &&& m = 0#32) (w : Word) : (w &&& ~~~x) &&& m = w &&& m := by
  have hm : ~~~x &&& m = m := by
    rw [← or_and_of_disjoint h (~~~x), BitVec.or_comm, BitVec.or_not_self, BitVec.allOnes_and]
  rw [BitVec.and_assoc, hm]

/-- Setting a bit outside a mask does not change what the mask takes. -/
theorem setBit_and {n : Nat} {m : Word} (h : 1#32 <<< n &&& m = 0#32) (b : Bool) (w : Word) :
    setBit n b w &&& m = w &&& m := by
  cases b with
  | false => exact and_not_and_of_disjoint h w
  | true => exact or_and_of_disjoint h w

/-- Replacing the mode changes no bit above the low byte. -/
theorem withMode_and (m : BitVec 5) (w : Word) : withMode m w &&& 0xFFFFFF00#32 = w &&& 0xFFFFFF00#32 := by
  have hfield : field 0 m &&& 0xFFFFFF00#32 = 0#32 := by revert m; decide
  rw [withMode, or_and_of_disjoint hfield, BitVec.and_assoc]
  rfl

/-- An exception entry changes of CPSR only the low byte (R640). -/
theorem Exception.cpsr_and (k : Exception) (w : Word) : k.cpsr w &&& 0xFFFFFF00#32 = w &&& 0xFFFFFF00#32 := by
  have hlow : setBit 7 true (setBit 5 false (withMode k.mode.bits w)) &&& 0xFFFFFF00#32 = w &&& 0xFFFFFF00#32 := by
    rw [setBit_and (by decide), setBit_and (by decide), withMode_and]
  cases k with
  | fiq => exact (setBit_and (by decide) true _).trans hlow
  | _ => exact hlow

/-- An exception entry clears T (R640). -/
theorem Exception.flagT_cpsr (k : Exception) (w : Word) : flagT (k.cpsr w) = false := by
  cases k <;> simp [flagT, Exception.cpsr, bit_setBit_ne, bit_setBit_self]

/-- T is no flag of a result. -/
@[simp] theorem flagT_withNZCV (n z c v : Bool) (w : Word) : flagT (withNZCV n z c v w) = flagT w := by
  simp [flagT, withNZCV, bit_or, bit_flag]; simp [bit]

/-- T of a masked word. -/
theorem flagT_and (w m : Word) : flagT (w &&& m) = (flagT w && flagT m) := by
  simp [flagT, bit]

/-- A word within PSR_MASK has no reserved bits (R51). -/
theorem psrOk_and_psrMask (v : Variant) (w : Word) : psrOk v (w &&& psrMask v) = true := by
  simp [psrOk, BitVec.and_assoc]

/-! ### The condition between two moves -/

/-- What holds of the stepping CPU between two moves: it has not halted, its pipeline is as at the start of the step
(R44), a target waiting for the program counter is word aligned (R240), and its status words are good (R51, R622). -/
structure Cpu.MidOk (c : Cpu) : Prop where
  running : c.halted = none
  pipeline : c.started = true → c.pipelineOk = true
  target : ∀ t, c.pendingPC = some t → bits 0 2 t = 0#2
  noThumb : flagT c.cpsr = false
  cpsr : psrOk c.cfg.variant c.cpsr = true
  spsrs : c.spsrsOk = true

/-- What holds of the block between two moves. -/
structure State.MidInv (s : State) : Prop where
  mem : s.mem.wf = true
  others : ∀ id, id ≠ s.cur → (s.cpuOf id).ok = true
  cpu : s.cpu.MidOk

/-- The parts of what holds of a CPU between steps. -/
theorem Cpu.ok_iff (c : Cpu) : c.ok = true ↔ (c.started = true → c.pipelineOk = true) ∧ c.pendingPC = none ∧
    flagT c.cpsr = false ∧ psrOk c.cfg.variant c.cpsr = true ∧ c.spsrsOk = true := by
  simp only [Cpu.ok, Cpu.cpsrOk, Bool.and_eq_true, Bool.or_eq_true, Bool.not_eq_true', Option.isNone_iff_eq_none,
    ← Bool.not_eq_true, imp_iff_not_or, and_assoc]

/-- The invariant, CPU by CPU. -/
theorem State.inv_iff (s : State) : s.Inv = true ↔ s.mem.wf = true ∧ ∀ id, (s.cpuOf id).ok = true := by
  simp only [State.Inv, Bool.and_eq_true, and_assoc]
  refine and_congr_right fun _ => ⟨fun h id => ?_, fun h => ⟨h .arm7, h .arm9⟩⟩
  cases id with
  | arm7 => exact h.1
  | arm9 => exact h.2

/-- The reserved bits of the live SPSR and of the SPSR of every mode (R51). -/
theorem Cpu.spsrsOk_iff (c : Cpu) : c.spsrsOk = true ↔ psrOk c.cfg.variant c.spsr = true ∧
    ∀ m w, c.banks.spsr m = some w → psrOk c.cfg.variant w = true := by
  simp only [Cpu.spsrsOk, List.all_cons, List.all_nil, Bool.and_true, Bool.and_eq_true]
  constructor
  · rintro ⟨hlive, hfiq, hirq, hsvc, habt, hund⟩
    refine ⟨hlive, fun m w hw => ?_⟩
    unfold Banks.spsr at hw
    split at hw <;> cases hw <;> assumption
  · rintro ⟨hlive, hbank⟩
    exact ⟨hlive, hbank Mode.fiq.bits _ rfl, hbank Mode.irq.bits _ rfl, hbank Mode.svc.bits _ rfl,
      hbank Mode.abt.bits _ rfl, hbank Mode.und.bits _ rfl⟩

/-! ### Moves of the stepping CPU -/

section

variable {c : Cpu}

/-- A save keeps the reserved bits of the SPSRs. -/
theorem Cpu.spsrsOk_saveBank (h : c.spsrsOk = true) (m : BitVec 5) : (c.saveBank m).spsrsOk = true := by
  obtain ⟨hlive, hbank⟩ := c.spsrsOk_iff.1 h
  rw [Cpu.spsrsOk_iff, Cpu.cfg_saveBank, Cpu.spsr_saveBank]
  refine ⟨hlive, fun m' w hw => ?_⟩
  by_cases hu : bankOf m' = .usr
  · rw [Banks.spsr_usr hu] at hw
    cases hw
  rw [Cpu.bankSpsr_saveBank m c hu] at hw
  split at hw
  · cases hw; exact hlive
  · exact hbank m' w hw

/-- A load keeps the reserved bits of the SPSRs. -/
theorem Cpu.spsrsOk_loadBank (h : c.spsrsOk = true) (m : BitVec 5) : (c.loadBank m).spsrsOk = true := by
  obtain ⟨hlive, hbank⟩ := c.spsrsOk_iff.1 h
  rw [Cpu.spsrsOk_iff, Cpu.cfg_loadBank, Cpu.banks_loadBank]
  refine ⟨?_, hbank⟩
  by_cases hu : bankOf m = .usr
  · rwa [Cpu.spsr_loadBank_usr c hu]
  · exact hbank m _ (Cpu.spsr_loadBank c hu).symm

/-- A switch keeps the reserved bits of the SPSRs. -/
theorem Cpu.spsrsOk_switchTo (h : c.spsrsOk = true) (new : Word) : (c.switchTo new).spsrsOk = true := by
  refine Cpu.spsrsOk_loadBank ?_ _
  have hsaved := Cpu.spsrsOk_saveBank h (modeField c.cpsr)
  rw [Cpu.spsrsOk_iff] at hsaved ⊢
  simpa only [Cpu.cfg_saveBank, Cpu.spsr_saveBank] using hsaved

/-- A register other than r15 may be written. -/
theorem Cpu.MidOk.withReg (h : c.MidOk) {i : Nat} (hi : i < 15) (v : Word) : { c with r := c.r.set i v }.MidOk where
  running := h.running
  pipeline hs := by
    have hpipe := h.pipeline hs
    rwa [Cpu.pipelineOk, ← Vector.getElem_set_ne (x := v) (show i < 16 by omega) (by decide) (by omega)] at hpipe
  target := h.target
  noThumb := h.noThumb
  cpsr := h.cpsr
  spsrs := h.spsrs

/-- A status word without T and without reserved bits may be written to CPSR. -/
theorem Cpu.MidOk.withCpsr (h : c.MidOk) {new : Word} (hT : flagT new = false) (hR : psrOk c.cfg.variant new = true) :
    { c with cpsr := new }.MidOk := { h with noThumb := hT, cpsr := hR }

/-- A status word without reserved bits may be written to SPSR. -/
theorem Cpu.MidOk.withSpsr (h : c.MidOk) {new : Word} (hR : psrOk c.cfg.variant new = true) :
    { c with spsr := new }.MidOk :=
  { h with spsrs := (Cpu.spsrsOk_iff _).2 ⟨hR, (c.spsrsOk_iff.1 h.spsrs).2⟩ }

/-- An aligned target may wait for the program counter. -/
theorem Cpu.MidOk.withTarget (h : c.MidOk) {t : Word} (ht : bits 0 2 t = 0#2) : { c with pendingPC := some t }.MidOk :=
  { h with target := fun _ e => Option.some.inj e ▸ ht }

/-- SPSR, r14 and the target of an exception entry may be written (R640). -/
theorem Cpu.MidOk.entered (h : c.MidOk) {old t : Word} (hR : psrOk c.cfg.variant old = true) (link : Word)
    (ht : bits 0 2 t = 0#2) : { c with spsr := old, r := c.r.set 14 link, pendingPC := some t }.MidOk :=
  ((h.withSpsr hR).withReg (by decide) link).withTarget ht

/-- The mode may be switched to a status word without T and without reserved bits. -/
theorem Cpu.MidOk.switchTo (h : c.MidOk) {new : Word} (hT : flagT new = false) (hR : psrOk c.cfg.variant new = true) :
    (c.switchTo new).MidOk where
  running := by rw [Cpu.halted_switchTo]; exact h.running
  pipeline := by
    rw [Cpu.started_switchTo, Cpu.pipelineOk, Cpu.pc_switchTo, Cpu.pcNext_switchTo, Cpu.r15_switchTo]
    exact h.pipeline
  target := by rw [Cpu.pendingPC_switchTo]; exact h.target
  noThumb := by rw [Cpu.cpsr_switchTo]; exact hT
  cpsr := by rw [Cpu.cfg_switchTo, Cpu.cpsr_switchTo]; exact hR
  spsrs := Cpu.spsrsOk_switchTo h.spsrs new

end

/-- A vector is word aligned (R641). -/
theorem vector_aligned (b : VectorBase) (k : Exception) : bits 0 2 (vectorAddress b + k.vector) = 0#2 := by
  cases b <;> cases k <;> decide

section

variable {s t : State}

/-- The stepping CPU may be replaced by one that is good between two moves. -/
theorem State.MidInv.setCpu (h : s.MidInv) {c : Cpu} (hc : c.MidOk) : (s.setCpu c).MidInv where
  mem := by rw [State.setCpu_mem]; exact h.mem
  others id hid := by
    rw [State.setCpu_cur] at hid
    rw [State.cpuOf_setCpu_ne hid]
    exact h.others id hid
  cpu := by rw [State.cpu_setCpu]; exact hc

/-- A register write keeps the condition: it is never one of r15 (R241). -/
theorem State.MidInv.setReg (h : s.MidInv) (i : RegNo) (v : Word) : (s.setReg i v).MidInv := by
  unfold State.setReg
  split
  · exact h
  · next hi =>
    have hne : i.toNat ≠ 15 := fun e => hi (BitVec.eq_of_toNat_eq e)
    exact h.setCpu (h.cpu.withReg (by omega) v)

/-- A write of CPSR that keeps T and the reserved bits keeps the condition. -/
theorem State.MidInv.putCpsr (h : s.MidInv) {new : Word} (hT : flagT new = false)
    (hR : psrOk s.variant new = true) : (s.putCpsr new).MidInv := by
  unfold State.putCpsr
  split
  · exact h.setCpu (h.cpu.withCpsr hT hR)
  · exact h.setCpu (h.cpu.switchTo hT hR)

/-- A write that is made keeps memory canonical. -/
theorem State.Writes.wf {a v : Word} (h : s.Writes a v t) (hm : s.mem.wf = true) : t.mem.wf = true := by
  unfold State.Writes at h
  split at h
  · exact h.elim
  · rw [h]; exact Memory.wf_writeWord _ v hm
  · rw [h]; exact hm

/-- Every move keeps the condition. -/
theorem State.Move.midInv (m : s.Move t) (h : s.MidInv) : t.MidInv := by
  have hcpsr {new m : Word} (hm : m &&& ~~~psrMask s.variant = ~~~psrMask s.variant)
      (hnew : new &&& m = s.cpu.cpsr &&& m) : psrOk s.variant new = true := (psrOk_congr hm hnew).trans h.cpu.cpsr
  cases m with
  | setReg i v => exact h.setReg i v
  | setUserReg i v =>
    unfold State.setUserReg
    split
    · split
      · exact h.setReg i v
      · exact h.setCpu { h.cpu with }
    · exact h
  | setNZCV n z c v =>
    refine h.setCpu (h.cpu.withCpsr ?_ (hcpsr ?_ (withNZCV_low n z c v _)))
    · rw [flagT_withNZCV]; exact h.cpu.noThumb
    · cases s.variant <;> decide
  | stickQ q =>
    unfold State.stickQ
    split
    · next hq =>
      have hv : s.variant = .v5 := by simpa using (Bool.and_eq_true_iff.1 hq).2
      refine h.setCpu (h.cpu.withCpsr ?_ (hcpsr (BitVec.and_self (x := _)) (setBit_and ?_ _ _)))
      · rw [flagT, bit_setBit_ne (by decide) (by decide)]; exact h.cpu.noThumb
      · rw [hv]; decide
    · exact h
  | draw n => exact { h with }
  | busRead hr => rw [hr.keeps]; exact { h with }
  | busWrite hw =>
    have hmem := hw.wf h.mem
    rw [hw.keeps]
    exact ⟨hmem, h.others, h.cpu⟩
  | setPendingPC _ ht => exact h.setCpu (h.cpu.withTarget ht)
  | putCpsr hT hR _ => exact h.putCpsr (hT.trans h.cpu.noThumb) (hcpsr (BitVec.and_self (x := _)) hR)
  | putSpsr hR =>
    obtain ⟨hlive, -⟩ := s.cpu.spsrsOk_iff.1 h.cpu.spsrs
    exact h.setCpu (h.cpu.withSpsr ((psrOk_congr (BitVec.and_self (x := _)) hR).trans hlive))
  | enterException k _ =>
    have hswitch := h.cpu.switchTo (k.flagT_cpsr _) (hcpsr (by cases s.variant <;> decide) (k.cpsr_and _))
    unfold State.enterException
    exact h.setCpu (hswitch.entered (by rw [Cpu.cfg_switchTo]; exact h.cpu.cpsr) _ (vector_aligned _ k))

/-- Every run of moves keeps the condition. -/
theorem State.Moves.midInv (m : s.Moves t) (h : s.MidInv) : t.MidInv := by
  induction m with
  | refl => exact h
  | tail _ hmove ih => exact hmove.midInv ih

end

/-! ### The start and the end of a step -/

section

variable {s t : State}

/-- The block round a good CPU. -/
theorem State.inv_setCpu (hm : s.mem.wf = true) (ho : ∀ id, id ≠ s.cur → (s.cpuOf id).ok = true) {c : Cpu}
    (hc : c.ok = true) : (s.setCpu c).Inv = true := by
  refine (State.inv_iff _).2 ⟨by rw [State.setCpu_mem]; exact hm, fun id => ?_⟩
  by_cases hid : id = s.cur
  · subst hid
    rw [State.setCpu, State.cpuOf_putCpu]
    exact hc
  · rw [State.cpuOf_setCpu_ne hid]
    exact ho id hid

/-- Two bits of an address four bytes on. -/
theorem bits_zero_two_add_four (a : Word) : bits 0 2 (a + 4#32) = bits 0 2 a := by
  apply BitVec.eq_of_toNat_eq
  simp only [bits, BitVec.extractLsb'_toNat, BitVec.toNat_add, BitVec.toNat_ofNat, Nat.shiftRight_zero]
  omega

/-- A CPU set to an aligned address is at the start of a step (R44, R46). -/
theorem Cpu.pipelineOk_setPC (c : Cpu) {a : Word} (h : bits 0 2 a = 0#2) : (c.setPC a).pipelineOk = true := by
  simp [Cpu.setPC_eq, Cpu.pipelineOk, h]

/-- The pipeline advanced from the start of a step is at the start of a step (R44, R45). -/
theorem Cpu.pipelineOk_prefetch {c : Cpu} (h : c.pipelineOk = true) : c.prefetch.pipelineOk = true := by
  simp only [Cpu.pipelineOk, Bool.and_eq_true, beq_iff_eq] at h
  obtain ⟨⟨hpc, hnext⟩, -⟩ := h
  simp [Cpu.prefetch, Cpu.pipelineOk, hnext, bits_zero_two_add_four, hpc]

/-- The end of a step for the pipeline leaves a good CPU (R230, R237). -/
theorem Cpu.MidOk.advance {c : Cpu} (h : c.MidOk) : c.advance.ok = true := by
  rw [Cpu.ok_iff]
  unfold Cpu.advance
  split
  · next a ha => exact ⟨fun _ => Cpu.pipelineOk_setPC c (h.target a ha), rfl, h.noThumb, h.cpsr, h.spsrs⟩
  · next hnone => exact ⟨fun hs => Cpu.pipelineOk_prefetch (h.pipeline hs), hnone, h.noThumb, h.cpsr, h.spsrs⟩

/-- The end of a step of a CPU that has not halted. -/
theorem State.retire_running (h : s.cpu.halted = none) (cost : Nat) :
    s.retire cost = s.setCpu (Cpu.advance { s.cpu with tick := s.cpu.tick + cost }) := by
  simp [State.retire, h]

/-- The end of a step that raised: the tick is charged, the pipeline stays (R230, R236). -/
theorem State.retire_halt (why : StopReason) (s : State) (cost : Nat) :
    (s.halt why).retire cost = s.setCpu { s.cpu with
      halted := some { why := why, pc := s.cpu.pc }, pendingPC := none, tick := s.cpu.tick + cost } := by
  simp [State.retire, State.halt]

/-- A CPU that completes a step is good. -/
theorem State.MidInv.retire (h : s.MidInv) (cost : Nat) : (s.retire cost).Inv = true := by
  have hc : ({ s.cpu with tick := s.cpu.tick + cost } : Cpu).MidOk := { h.cpu with }
  rw [State.retire_running h.cpu.running]
  exact State.inv_setCpu h.mem h.others hc.advance

/-- A CPU that halts in a step is good. -/
theorem State.MidInv.retire_halt (h : s.MidInv) (why : StopReason) (cost : Nat) :
    ((s.halt why).retire cost).Inv = true := by
  rw [State.retire_halt]
  exact State.inv_setCpu h.mem h.others
    ((Cpu.ok_iff _).2 ⟨h.cpu.pipeline, rfl, h.cpu.noThumb, h.cpu.cpsr, h.cpu.spsrs⟩)

/-- The end of a step of a CPU, from the condition, takes the block back to the invariant. -/
theorem State.Ends.inv {r : Result} (e : s.Ends r) (h : s.MidInv) {cost : Nat} (ht : retireResult cost r = .next t) :
    t.Inv = true := by
  cases e with
  | done hm => cases ht; exact (hm.midInv h).retire cost
  | raised hm why => cases ht; exact (hm.midInv h).retire_halt why cost

/-- The condition holds of a CPU whose turn it is, at the start of its step. -/
theorem State.midInv_select (h : s.Inv = true) {id : CpuId} (hturn : s.turn = some id) :
    (s.select id).clearPending.MidInv := by
  obtain ⟨hm, hcpu⟩ := s.inv_iff.1 h
  obtain ⟨hpipe, hpending, hT, hpsr, hspsrs⟩ := (Cpu.ok_iff _).1 (hcpu id)
  obtain ⟨-, hrun⟩ := State.alive_of_turn hturn
  have hselect : (s.select id).MidInv :=
    ⟨hm, fun k _ => hcpu k, ⟨hrun, hpipe, fun t ht => absurd (hpending.symm.trans ht) nofun, hT, hpsr, hspsrs⟩⟩
  exact hselect.setCpu { hselect.cpu with target := nofun }

/-- A move of the Clock keeps the invariant: it does not speak of ticks. -/
theorem OnlyTicks.inv (e : OnlyTicks s t) (h : s.Inv = true) : t.Inv = true := by
  obtain ⟨hm, hcpu⟩ := s.inv_iff.1 h
  obtain ⟨hcpus, hmem, -⟩ := e
  refine (State.inv_iff t).2 ⟨hmem ▸ hm, fun id => ?_⟩
  rw [hcpus id]
  exact hcpu id

end

/-! ### The obligations -/

/-- Settles O56: a step is the end of a run of moves of the CPU whose turn it is, or a move of the Clock. -/
theorem invariantKept : Obligations.InvariantKept := by
  intro s t h hstep
  change s.blockStep = .next t at hstep
  unfold State.blockStep at hstep
  split at hstep
  · cases hstep
  split at hstep
  · next id hturn =>
    obtain ⟨cost, r, hends, hcpu⟩ := (s.select id).cpuStep_ends
    exact hends.inv (State.midInv_select h hturn) (hcpu.symm.trans hstep)
  · cases hstep
    exact (OnlyTicks.clockStep s).inv h

/-- The saves of a reset keep the configuration, CPSR and the reserved bits of the SPSRs (R700). -/
theorem Cpu.saves_ok (ms : List Mode) {c : Cpu} (h : c.spsrsOk = true) :
    (ms.foldl (fun x m => x.saveBank m.bits) c).cfg = c.cfg ∧
    (ms.foldl (fun x m => x.saveBank m.bits) c).cpsr = c.cpsr ∧
    (ms.foldl (fun x m => x.saveBank m.bits) c).spsrsOk = true := by
  induction ms generalizing c with
  | nil => exact ⟨rfl, rfl, h⟩
  | cons m ms ih =>
    obtain ⟨hcfg, hcpsr, hspsrs⟩ := ih (Cpu.spsrsOk_saveBank h m.bits)
    rw [List.foldl_cons]
    exact ⟨hcfg.trans (Cpu.cfg_saveBank _ c), hcpsr.trans (Cpu.cpsr_saveBank _ c), hspsrs⟩

/-- A CPU that is not started is good when its status words are. -/
theorem Cpu.ok_notStarted {c : Cpu} (hT : flagT c.cpsr = false) (hR : psrOk c.cfg.variant c.cpsr = true)
    (hS : c.spsrsOk = true) {pc pcNext : Word} {halted : Option Halt} :
    { c with pc := pc, pcNext := pcNext, pendingPC := none, started := false, halted := halted }.ok = true :=
  (Cpu.ok_iff _).2 ⟨nofun, rfl, hT, hR, hS⟩

/-- A CPU is good after `reset()` when its SPSRs were and RESET_CPSR has T = 0 (R700). -/
theorem Cpu.ok_doReset {c : Cpu} (h : c.spsrsOk = true) {w : Word} (hT : flagT w = false) :
    (c.doReset w).ok = true := by
  have hzero : psrOk c.cfg.variant 0#32 = true := by cases c.cfg.variant <;> decide
  obtain ⟨hcfg, hcpsr, hspsrs⟩ := Cpu.saves_ok resetModes (c := { c with
    r := Vector.replicate 16 0#32, cpsr := w &&& psrMask c.cfg.variant, spsr := 0#32 })
    ((Cpu.spsrsOk_iff _).2 ⟨hzero, (c.spsrsOk_iff.1 h).2⟩)
  refine Cpu.ok_notStarted ?_ ?_ hspsrs
  · simp only [hcpsr, flagT_and, hT, Bool.false_and]
  · simp only [hcpsr, hcfg, psrOk_and_psrMask]

/-- Settles O57: the state after reset is evaluated; `reset()` of one CPU leaves it good and the rest as it was. -/
theorem invariantAtReset : Obligations.InvariantAtReset := by
  refine ⟨by decide, fun s id h hT => ?_⟩
  obtain ⟨hm, hcpu⟩ := s.inv_iff.1 h
  refine (State.inv_iff _).2 ⟨by rw [State.resetCpu, State.putCpu_mem]; exact hm, fun k => ?_⟩
  rw [State.resetCpu]
  by_cases hk : k = id
  · subst hk
    obtain ⟨-, -, -, -, hspsrs⟩ := (Cpu.ok_iff _).1 (hcpu k)
    rw [State.cpuOf_putCpu]
    exact Cpu.ok_doReset hspsrs hT
  · rw [State.cpuOf_putCpu_ne hk]
    exact hcpu k

/-- Settles O48: `setPC` by its equation, the idle steps by the two tests of `Step()`. -/
theorem setPcAndIdleSteps : Obligations.SetPcAndIdleSteps := by
  intro id a s
  refine ⟨by rw [State.hostSetPC, Cpu.setPC_eq], fun hs hstart => ?_, fun hs hstart hhalt => ?_⟩
  · rw [State.hostStep, State.inSession_open hs, if_pos hstart]
  · rw [State.hostStep, State.inSession_open hs, if_neg (by rw [hstart]; simp),
      if_pos (Option.isSome_iff_ne_none.2 hhalt)]

end Sys2Proof.Machine
end

section
/-! SUPPORT. One bus access by what its address resolves to (R105 to R108), and the lanes of a word (R110): the word, the
byte and the halfword views of raw memory. -/

namespace Sys2Proof.Machine

open Sys2Proof.Config

section

variable {s : State} {a v x : Word} {p d : Nat}

/-! ### One access by the item of its address -/

/-- A read of a raw buffer is done with the word at its place (R105). -/
theorem State.busRead32_raw (h : s.cpu.bus.resolve s.params.highAddr s.cpu.bus.readPages a = .raw p) :
    s.busRead32 a = .done (s.mem.readWord p) s := by
  rw [State.busRead32, h]

/-- A read of a delegate is done with a free value and recorded (R106). -/
theorem State.busRead32_delegate (h : s.cpu.bus.resolve s.params.highAddr s.cpu.bus.readPages a = .delegate d x) :
    s.busRead32 a = .done (delegateAnswer d s.draws x)
      { s with draws := s.draws + 1, events := .read s.cur d x (delegateAnswer d s.draws x) :: s.events } := by
  rw [State.busRead32, h]

/-- A write to a raw buffer stores the word at its place (R105). -/
theorem State.busWrite32_raw (h : s.cpu.bus.resolve s.params.highAddr s.cpu.bus.writePages a = .raw p) :
    s.busWrite32 a v = .done () { s with mem := s.mem.writeWord p v } := by
  rw [State.busWrite32, h]

/-- A write to a delegate is recorded (R106). -/
theorem State.busWrite32_delegate (h : s.cpu.bus.resolve s.params.highAddr s.cpu.bus.writePages a = .delegate d x) :
    s.busWrite32 a v = .done () { s with events := .write s.cur d x v :: s.events } := by
  rw [State.busWrite32, h]

/-- A read that faults has no effect (R107). -/
theorem State.eq_of_busRead32_fault {t : State} (h : s.busRead32 a = .fault x t) : t = s := by
  unfold State.busRead32 at h
  split at h <;> cases h
  rfl

/-! ### Addresses beyond the bus (R108) -/

/-- With HIGH_ADDR fault an address beyond the bus leads nowhere. -/
theorem Bus.resolve_beyond_fault {b : Bus} (h : 2 ^ b.addressBits ≤ a.toNat) (pages : PageTable) :
    b.resolve .fault pages a = .invalid a := by
  simp only [Bus.resolve, Bus.address, if_neg h.not_gt]

/-- With HIGH_ADDR wrap an address beyond the bus is reduced modulo the address space. -/
theorem Bus.resolve_beyond_wrap {b : Bus} (h : 2 ^ b.addressBits ≤ a.toNat) (pages : PageTable) :
    b.resolve .wrap pages a = b.resolve .wrap pages (BitVec.ofNat 32 (a.toNat % 2 ^ b.addressBits)) := by
  have hmod : a.toNat % 2 ^ b.addressBits < 2 ^ b.addressBits := Nat.mod_lt _ (Nat.two_pow_pos _)
  have hword : (BitVec.ofNat 32 (a.toNat % 2 ^ b.addressBits)).toNat = a.toNat % 2 ^ b.addressBits := by
    rw [BitVec.toNat_ofNat, Nat.mod_eq_of_lt (hmod.trans (h.trans_lt a.isLt))]
  simp only [Bus.resolve, Bus.address, if_neg h.not_gt, hword, if_pos hmod]

end

/-- Settles O49: each access by its item, an address beyond the bus by HIGH_ADDR. -/
theorem busAccess : Obligations.BusAccess := by
  intro s a v
  refine ⟨fun _ => State.busRead32_fault, fun _ => State.busRead32_raw, fun _ _ => State.busRead32_delegate,
    fun _ => State.busWrite32_fault, fun _ => State.busWrite32_raw, fun _ _ => State.busWrite32_delegate,
    fun h pages => ?_⟩
  cases s.params.highAddr with
  | fault => exact Bus.resolve_beyond_fault h pages
  | wrap => exact Bus.resolve_beyond_wrap h pages

/-! ### The lanes of a word (R110) -/

/-- Byte `k` of a word, in its two spellings. -/
theorem bits_byte (k : Nat) (w : Word) : bits (8 * k) 8 w = byteOf w k := by
  apply BitVec.eq_of_getLsbD_eq
  intro i hi
  simp [bits, byteOf]

/-- Halfword `k` of a word, in its two spellings. -/
theorem bits_half (k : Nat) (w : Word) : bits (16 * k) 16 w = halfOf w k := by
  apply BitVec.eq_of_getLsbD_eq
  intro i hi
  simp [bits, halfOf]

/-- The lane of a byte address, in its two spellings. -/
theorem byteLane_eq_laneOf (e : Endian) (a : Word) : byteLane e a = laneOf e a := by
  have h : (bits 0 2 a).toNat = a.toNat % 4 := by simp [bits]
  cases e with
  | little => exact h
  | big =>
    have hx : ∀ y : BitVec 2, (y ^^^ 3#2).toNat = 3 - y.toNat := by decide
    rw [byteLane, laneOf, hx, h]

/-- The half lane of an address, in its two spellings. -/
theorem halfLane_eq_halfLaneOf (e : Endian) (a : Word) : halfLane e a = halfLaneOf e a := by
  have h : (bits 1 1 a).toNat = a.toNat / 2 % 2 := by simp [bits, Nat.shiftRight_eq_div_pow]
  cases e with
  | little => exact h
  | big =>
    have hx : ∀ y : BitVec 1, (y ^^^ 1#1).toNat = 1 - y.toNat := by decide
    rw [halfLane, halfLaneOf, hx, h]

/-- A byte load from a word that a read answers gives the byte of its lane (R113). -/
theorem State.memRead8_done {a w : Word} {s t : State} (h : s.busRead32 (alignDown a) = .done w t) :
    s.memRead8 a = .done (byteOf w (laneOf s.endian a)) t := by
  rw [State.memRead8, wordAlign_eq_alignDown, h, byteLane_eq_laneOf, Access.map, bits_byte]

/-- A halfword load from a word that a read answers gives the half of its lane (R112). -/
theorem State.memRead16_done {a w : Word} {s t : State} (h : s.busRead32 (alignDown a) = .done w t) :
    s.memRead16 a = .done (halfOf w (halfLaneOf s.endian a)) t := by
  rw [State.memRead16, wordAlign_eq_alignDown, h, halfLane_eq_halfLaneOf, Access.map, bits_half]

/-! ### Addresses within an aligned word -/

section

variable {a : Word}

/-- A byte address within an aligned word, as a number: no carry leaves the word. -/
theorem toNat_add_of_aligned (ha : a.toNat % 4 = 0) {n : Nat} (hn : n < 4) :
    (a + BitVec.ofNat 32 n).toNat = a.toNat + n := by
  have := a.isLt
  rw [BitVec.toNat_add, BitVec.toNat_ofNat]
  omega

/-- The word address of a byte address within an aligned word. -/
theorem alignDown_add_of_aligned (ha : a.toNat % 4 = 0) {n : Nat} (hn : n < 4) :
    alignDown (a + BitVec.ofNat 32 n) = a := by
  rw [alignDown, toNat_add_of_aligned ha hn, show (a.toNat + n) % 4 = n by omega, BitVec.add_sub_cancel]

/-- The lane of byte `n` of an aligned word (R110). -/
theorem laneOf_add_of_aligned (e : Endian) (ha : a.toNat % 4 = 0) {n : Nat} (hn : n < 4) :
    laneOf e (a + BitVec.ofNat 32 n) = match e with
      | .little => n
      | .big => 3 - n := by
  have h : (a.toNat + n) % 4 = n := by omega
  cases e <;> simp only [laneOf, toNat_add_of_aligned ha hn, h]

/-- The half lane of halfword `n` of an aligned word (R110). -/
theorem halfLaneOf_add_of_aligned (e : Endian) (ha : a.toNat % 4 = 0) {n : Nat} (hn : n < 2) :
    halfLaneOf e (a + BitVec.ofNat 32 (2 * n)) = match e with
      | .little => n
      | .big => 1 - n := by
  have h : (a.toNat + 2 * n) / 2 % 2 = n := by omega
  cases e <;> simp only [halfLaneOf, toNat_add_of_aligned ha (show 2 * n < 4 by omega), h]

/-- A word stored at an aligned raw address is read back there (R105, R114). -/
theorem State.busRead32_after_write {s : State} {p : Nat} (v : Word) (hm : s.mem.wf = true) (hraw : s.rawAt a p)
    (ha : alignDown a = a) : ({ s with mem := s.mem.writeWord p v } : State).busRead32 a =
      .done v { s with mem := s.mem.writeWord p v } := by
  rw [State.rawAt, ha] at hraw
  rw [State.busRead32_raw (s := { s with mem := s.mem.writeWord p v }) hraw.1, Memory.readWord_writeWord p v hm]

end

/-- Settles O19: every view reads the stored word back and takes its lane. -/
theorem mixedWidthView : Obligations.MixedWidthView := by
  intro s a v p hm ha hraw
  have haligned : alignDown a = a := by simpa using alignDown_add_of_aligned ha (n := 0) (by omega)
  have hwrite : s.memWrite32 a v = .done () { s with mem := s.mem.writeWord p v } := by
    rw [State.memWrite32_eq, State.busWrite32_raw hraw.2]
  have hread := State.busRead32_after_write v hm hraw haligned
  refine ⟨_, hwrite, fun n hn => ?_, fun n hn => ?_⟩
  · rw [← alignDown_add_of_aligned ha hn] at hread
    exact ⟨_, (State.memRead8_done hread).trans (congrArg (fun k => Access.done (byteOf v k) _)
      (laneOf_add_of_aligned s.endian ha hn))⟩
  · rw [← alignDown_add_of_aligned ha (show 2 * n < 4 by omega)] at hread
    exact ⟨_, (State.memRead16_done hread).trans (congrArg (fun k => Access.done (halfOf v k) _)
      (halfLaneOf_add_of_aligned s.endian ha hn))⟩

end Sys2Proof.Machine
end

section
/-! SUPPORT. Ranges of a bus (R101 to R105): what an address leads to through the items of a page, through a page table and
through a whole installation, and the partition of R103 kept by each of them. -/

namespace Sys2Proof.Machine

open Sys2Proof.Config

/-! ### What an address leads to -/

/-- The accessor and the offset (R105) of the item of a page that holds an address. -/
def itemsLead (items : List Item) (a : Nat) : Option (Accessor × Nat) :=
  (items.find? fun it => decide (it.base ≤ a) && decide (a < it.limit)).map fun it => (it.acc, it.offset)

/-- The accessor and the offset that an address leads to through a page table (R101, R103). -/
def Bus.leads (b : Bus) (pages : PageTable) (a : Nat) : Option (Accessor × Nat) :=
  itemsLead (b.pageItems pages (a / 2 ^ b.pageBits)) a

/-- What an address within the bus selects, by its accessor and offset (R105 to R107). -/
def targetOf (a : Word) : Option (Accessor × Nat) → Target
  | some (.raw buf, offset) => .raw (buf + (a.toNat - offset))
  | some (.delegate dev, _) => .delegate dev a
  | some (.invalid, _) => .invalid a
  | none => .invalid a

/-- An address within the bus is resolved by what it leads to, whatever HIGH_ADDR says. -/
theorem Bus.resolve_eq_targetOf (hi : HighAddr) (b : Bus) (pages : PageTable) {a : Word}
    (h : a.toNat < 2 ^ b.addressBits) : b.resolve hi pages a = targetOf a (b.leads pages a.toNat) := by
  simp only [Bus.resolve, Bus.address, if_pos h, Bus.leads, itemsLead, Bus.itemAt, BitVec.ofNat_toNat,
    BitVec.setWidth_eq]
  cases (b.pageItems pages (a.toNat / 2 ^ b.pageBits)).find? fun it =>
      decide (it.base ≤ a.toNat) && decide (a.toNat < it.limit) with
  | none => rfl
  | some it =>
    obtain ⟨_, _, _, acc⟩ := it
    cases acc <;> rfl

/-- The number of the page of an address (R101). -/
theorem div_page_eq {a n p : Nat} : a / 2 ^ p = n ↔ n * 2 ^ p ≤ a ∧ a < (n + 1) * 2 ^ p := by
  have hp : 0 < 2 ^ p := Nat.two_pow_pos p
  rw [← Nat.le_div_iff_mul_le hp, ← Nat.div_lt_iff_lt_mul hp]
  omega

/-! ### Items -/

/-- An empty page leads nowhere. -/
@[simp] theorem itemsLead_nil (a : Nat) : itemsLead [] a = none := rfl

/-- The first item decides, when it holds the address. -/
@[simp] theorem itemsLead_cons (it : Item) (items : List Item) (a : Nat) :
    itemsLead (it :: items) a =
      if it.base ≤ a ∧ a < it.limit then some (it.acc, it.offset) else itemsLead items a := by
  simp only [itemsLead, List.find?_cons]
  split <;> simp_all

/-- The first part of a page decides, when it holds the address. -/
theorem itemsLead_append (xs ys : List Item) (a : Nat) :
    itemsLead (xs ++ ys) a = (itemsLead xs a).or (itemsLead ys a) := by
  simp only [itemsLead, List.find?_append, Option.map_or]

/-- The first item of a page, cut at `k` from above, remains below `k` when it starts there. -/
theorem filterMap_below_cons (k : Nat) (it : Item) (items : List Item) :
    (it :: items).filterMap (Item.below k) =
      if it.base < k then { it with limit := min it.limit k } :: items.filterMap (Item.below k)
      else items.filterMap (Item.below k) := by
  rw [List.filterMap_cons, Item.below]
  split_ifs <;> rfl

/-- The first item of a page, cut at `k` from below, remains from `k` on when it ends there. -/
theorem filterMap_above_cons (k : Nat) (it : Item) (items : List Item) :
    (it :: items).filterMap (Item.above k) =
      if k < it.limit then { it with base := max it.base k } :: items.filterMap (Item.above k)
      else items.filterMap (Item.above k) := by
  rw [List.filterMap_cons, Item.above]
  split_ifs <;> rfl

/-- What remains below `k` leads where it led, below `k` alone. -/
theorem itemsLead_below (k : Nat) (items : List Item) (a : Nat) :
    itemsLead (items.filterMap (Item.below k)) a = if a < k then itemsLead items a else none := by
  induction items with
  | nil => simp
  | cons it items ih =>
    rw [filterMap_below_cons, itemsLead_cons]
    split
    · rw [itemsLead_cons, ih]; grind
    · rw [ih]; grind

/-- What remains from `k` on leads where it led, from `k` on alone. -/
theorem itemsLead_above (k : Nat) (items : List Item) (a : Nat) :
    itemsLead (items.filterMap (Item.above k)) a = if k ≤ a then itemsLead items a else none := by
  induction items with
  | nil => simp
  | cons it items ih =>
    rw [filterMap_above_cons, itemsLead_cons]
    split
    · rw [itemsLead_cons, ih]; grind
    · rw [ih]; grind

/-- An inserted item leads its own addresses; every other address leads where it led (R102, R103). -/
theorem itemsLead_insertItem {new : Item} (h : new.base ≤ new.limit) (items : List Item) (a : Nat) :
    itemsLead (insertItem new items) a =
      if new.base ≤ a ∧ a < new.limit then some (new.acc, new.offset) else itemsLead items a := by
  rw [insertItem, itemsLead_append, itemsLead_cons, itemsLead_below, itemsLead_above]
  grind

/-! ### The partition of a page (R103) -/

/-- A partition is split by its first item. -/
theorem partitions_cons {lo hi : Nat} {it : Item} {items : List Item} :
    partitions lo hi (it :: items) = true ↔
      it.base = lo ∧ it.base < it.limit ∧ partitions it.limit hi items = true := by
  simp [partitions, and_assoc]

/-- The empty list partitions the empty range alone. -/
theorem partitions_nil {lo hi : Nat} : partitions lo hi [] = true ↔ lo = hi := by simp [partitions]

/-- Two partitions, one after the other. -/
theorem partitions_append {lo mid hi : Nat} {xs ys : List Item} (hx : partitions lo mid xs = true)
    (hy : partitions mid hi ys = true) : partitions lo hi (xs ++ ys) = true := by
  induction xs generalizing lo with
  | nil => exact partitions_nil.1 hx ▸ hy
  | cons it xs ih =>
    obtain ⟨hbase, hne, hrest⟩ := partitions_cons.1 hx
    exact partitions_cons.2 ⟨hbase, hne, ih hrest⟩

/-- Nothing of a partition remains below its start. -/
theorem filterMap_below_start {k lo hi : Nat} {items : List Item} (hk : k ≤ lo) (h : partitions lo hi items = true) :
    items.filterMap (Item.below k) = [] := by
  induction items generalizing lo with
  | nil => rfl
  | cons it items ih =>
    obtain ⟨rfl, hne, hrest⟩ := partitions_cons.1 h
    rw [filterMap_below_cons, if_neg (by omega), ih (by omega) hrest]

/-- All of a partition remains from its start on. -/
theorem filterMap_above_start {k lo hi : Nat} {items : List Item} (hk : k ≤ lo) (h : partitions lo hi items = true) :
    items.filterMap (Item.above k) = items := by
  induction items generalizing lo with
  | nil => rfl
  | cons it items ih =>
    obtain ⟨rfl, hne, hrest⟩ := partitions_cons.1 h
    rw [filterMap_above_cons, if_pos (by omega), ih (by omega) hrest, max_eq_left hk]

/-- What remains of a partition below `k` is one up to `k`. -/
theorem partitions_below {k lo hi : Nat} {items : List Item} (hlo : lo ≤ k) (hhi : k ≤ hi)
    (h : partitions lo hi items = true) : partitions lo k (items.filterMap (Item.below k)) = true := by
  induction items generalizing lo with
  | nil => exact partitions_nil.2 (by have := partitions_nil.1 h; omega)
  | cons it items ih =>
    obtain ⟨rfl, hne, hrest⟩ := partitions_cons.1 h
    rcases hlo.eq_or_lt with rfl | hlt
    · rw [filterMap_below_start le_rfl h, partitions_nil]
    rw [filterMap_below_cons, if_pos hlt, partitions_cons]
    refine ⟨rfl, lt_min hne hlt, ?_⟩
    rcases le_total it.limit k with hle | hle
    · rw [min_eq_left hle]
      exact ih hle hrest
    · rw [min_eq_right hle, filterMap_below_start hle hrest, partitions_nil]

/-- What remains of a partition from `k` on is one from `k`. -/
theorem partitions_above {k lo hi : Nat} {items : List Item} (hlo : lo ≤ k) (hhi : k ≤ hi)
    (h : partitions lo hi items = true) : partitions k hi (items.filterMap (Item.above k)) = true := by
  induction items generalizing lo with
  | nil => exact partitions_nil.2 (by have := partitions_nil.1 h; omega)
  | cons it items ih =>
    obtain ⟨rfl, hne, hrest⟩ := partitions_cons.1 h
    rw [filterMap_above_cons]
    split
    · next hk =>
      rw [filterMap_above_start hk.le hrest, partitions_cons]
      exact ⟨max_eq_right hlo, max_lt hne hk, hrest⟩
    · next hk => exact ih (by omega) hrest

/-- A page stays partitioned when a non-empty item within it is inserted (R102, R103). -/
theorem partitions_insertItem {lo hi : Nat} {new : Item} {items : List Item} (hlo : lo ≤ new.base)
    (hne : new.base < new.limit) (hhi : new.limit ≤ hi) (h : partitions lo hi items = true) :
    partitions lo hi (insertItem new items) = true :=
  partitions_append (partitions_below hlo (by omega) h)
    (partitions_cons.2 ⟨rfl, hne, partitions_above (by omega) hhi h⟩)

/-! ### Pages -/

/-- A page of a table in which one page was replaced. -/
theorem Bus.pageItems_setPage (b : Bus) (n : Nat) (items : List Item) (pages : PageTable) (m : Nat) :
    b.pageItems (setPage n items pages) m = if m = n then items else b.pageItems pages m := by
  unfold Bus.pageItems
  induction pages with
  | nil => rw [setPage]; grind
  | cons p pages ih =>
    rw [setPage]
    split <;> grind

/-- A range installed in one page leads its addresses there; every other address leads where it led. -/
theorem Bus.leads_installPage (b : Bus) (base limit : Nat) (acc : Accessor) (pages : PageTable) (n a : Nat) :
    b.leads (b.installPage base limit acc pages n) a =
      if a / 2 ^ b.pageBits = n ∧ base ≤ a ∧ a < limit then some (acc, base) else b.leads pages a := by
  unfold Bus.leads Bus.installPage Bus.pageItem
  by_cases hmeet : max base (n * 2 ^ b.pageBits) < min limit ((n + 1) * 2 ^ b.pageBits)
  · simp only [if_pos hmeet, Bus.pageItems_setPage]
    by_cases hn : a / 2 ^ b.pageBits = n
    · have hpage := div_page_eq.1 hn
      rw [if_pos hn, itemsLead_insertItem hmeet.le, hn]
      exact if_congr (by simp only [max_le_iff, lt_min_iff]; tauto) rfl rfl
    · rw [if_neg hn, if_neg fun h => hn h.1]
  · simp only [if_neg hmeet]
    refine (if_neg ?_).symm
    rintro ⟨hn, hbase, hlimit⟩
    have hpage := div_page_eq.1 hn
    omega

/-- A range installed in one page keeps every page partitioned. -/
theorem Bus.pageOk_installPage {b : Bus} {pages : PageTable} {m : Nat} (h : b.pageOk pages m = true)
    (base limit : Nat) (acc : Accessor) (n : Nat) : b.pageOk (b.installPage base limit acc pages n) m = true := by
  unfold Bus.installPage Bus.pageItem
  by_cases hmeet : max base (n * 2 ^ b.pageBits) < min limit ((n + 1) * 2 ^ b.pageBits)
  · simp only [if_pos hmeet, Bus.pageOk, Bus.pageItems_setPage]
    by_cases hm : m = n
    · subst hm
      rw [if_pos rfl]
      exact partitions_insertItem (le_max_right _ _) hmeet (min_le_right _ _) h
    · rw [if_neg hm]; exact h
  · simpa only [if_neg hmeet] using h

/-! ### Installations -/

/-- A range installed in several pages leads its addresses in those pages. -/
theorem Bus.leads_installPages (b : Bus) (base limit : Nat) (acc : Accessor) (ns : List Nat) (pages : PageTable)
    (a : Nat) : b.leads (ns.foldl (b.installPage base limit acc) pages) a =
      if a / 2 ^ b.pageBits ∈ ns ∧ base ≤ a ∧ a < limit then some (acc, base) else b.leads pages a := by
  induction ns generalizing pages with
  | nil => simp
  | cons n ns ih =>
    rw [List.foldl_cons, ih, Bus.leads_installPage]
    simp only [List.mem_cons]
    grind

/-- A range installed in several pages keeps every page partitioned. -/
theorem Bus.pageOk_installPages {b : Bus} {pages : PageTable} {m : Nat} (h : b.pageOk pages m = true)
    (base limit : Nat) (acc : Accessor) (ns : List Nat) :
    b.pageOk (ns.foldl (b.installPage base limit acc) pages) m = true := by
  induction ns generalizing pages with
  | nil => exact h
  | cons n ns ih => exact ih (Bus.pageOk_installPage h base limit acc n)

/-- The page of every address of a range is among the affected ones (R102). -/
theorem Bus.page_mem_affectedPages {b : Bus} {base limit a : Nat} (hbase : base ≤ a) (hlimit : a < limit)
    (hin : a < 2 ^ b.addressBits) : a / 2 ^ b.pageBits ∈ b.affectedPages base limit := by
  have hfirst : base / 2 ^ b.pageBits ≤ a / 2 ^ b.pageBits := Nat.div_le_div_right hbase
  have hlast : a / 2 ^ b.pageBits ≤ (min limit (2 ^ b.addressBits) - 1) / 2 ^ b.pageBits :=
    Nat.div_le_div_right (Nat.le_sub_one_of_lt (lt_min hlimit hin))
  simp only [Bus.affectedPages, List.mem_map, List.mem_range]
  exact ⟨a / 2 ^ b.pageBits - base / 2 ^ b.pageBits, by omega, by omega⟩

/-- An installed range leads each of its addresses within the bus to its accessor, with its base as the offset (R105);
every other address leads where it led. -/
theorem Bus.leads_install (b : Bus) (base size : Nat) (acc : Accessor) (pages : PageTable) {a : Nat}
    (h : a < 2 ^ b.addressBits) : b.leads (b.install base size acc pages) a =
      if base ≤ a ∧ a < base + size then some (acc, base) else b.leads pages a := by
  rw [Bus.install, Bus.leads_installPages]
  refine if_congr ⟨fun ⟨_, hb, hl⟩ => ⟨hb, by omega⟩, fun ⟨hb, hl⟩ => ?_⟩ rfl rfl
  have hlimit : a < min (base + size) (2 ^ b.addressBits) := lt_min hl h
  exact ⟨Bus.page_mem_affectedPages hb hlimit h, hb, hlimit⟩

/-! ### `create` and `addRange` -/

/-- A page of a new bus is partitioned: its one item is the invalid sentinel over the whole page (R101). -/
theorem Bus.pageOk_nil (b : Bus) (n : Nat) : b.pageOk [] n = true :=
  partitions_cons.2 ⟨rfl, Nat.mul_lt_mul_of_pos_right n.lt_succ_self (Nat.two_pow_pos _), partitions_nil.2 rfl⟩

/-- Every address of a new bus leads to the invalid sentinel (R101). -/
theorem Bus.resolve_nil (hi : HighAddr) (b : Bus) {a : Word} (h : a.toNat < 2 ^ b.addressBits) :
    b.resolve hi [] a = .invalid a := by
  rw [Bus.resolve_eq_targetOf hi b [] h]
  have hpage := div_page_eq (a := a.toNat) (p := b.pageBits) |>.1 rfl
  simp only [Bus.leads, Bus.pageItems, List.find?_nil, itemsLead_cons, if_pos hpage, targetOf]

/-- One side of a bus after `addRange`: the old pages when the side is not covered, else the range installed. -/
def Bus.sidePages (b : Bus) (covered : Bool) (base size : Nat) (acc : Accessor) (pages : PageTable) : PageTable :=
  if covered then b.install base size acc pages else pages

/-- `addRange` that does not fail, by its two sides (R102, R104). -/
theorem Bus.addRange_eq {base size : Nat} (hb : base % 16 = 0) (hs : size % 16 = 0) (b : Bus) (side : Side)
    (acc : Accessor) : b.addRange side base size acc = some { b with
      readPages := b.sidePages (side != .write) base size acc b.readPages
      writePages := b.sidePages (side != .read) base size acc b.writePages } := by
  rw [Bus.addRange, if_pos ⟨hb, hs⟩]
  cases side <;> rfl

/-- What an address within the bus is resolved to after `addRange`, on one side (R102, R104, R105). -/
theorem Bus.resolve_sidePages (hi : HighAddr) (b : Bus) (covered : Bool) (base size : Nat) (acc : Accessor)
    (pages : PageTable) {a : Word} (h : a.toNat < 2 ^ b.addressBits) :
    b.resolve hi (b.sidePages covered base size acc pages) a =
      if covered = true ∧ base ≤ a.toNat ∧ a.toNat < base + size then targetOf a (some (acc, base))
      else b.resolve hi pages a := by
  cases covered with
  | false => simp [Bus.sidePages]
  | true =>
    simp only [Bus.sidePages, if_true, true_and, Bus.resolve_eq_targetOf hi b _ h, Bus.leads_install b _ _ _ _ h,
      apply_ite (targetOf a)]

/-- `addRange` keeps the pages of a side partitioned (R103). -/
theorem Bus.pageOk_sidePages {b : Bus} {pages : PageTable} {n : Nat} (h : b.pageOk pages n = true) (covered : Bool)
    (base size : Nat) (acc : Accessor) : b.pageOk (b.sidePages covered base size acc pages) n = true := by
  cases covered with
  | false => exact h
  | true => exact Bus.pageOk_installPages h _ _ _ _

/-- Settles O50: a new bus by its one invalid item per page, `addRange` by what it makes of each side. -/
theorem addRange : Obligations.AddRange := by
  intro b side base size bits page acc
  refine ⟨fun h => if_neg h, fun hbits hpage hle => ?_, fun h => if_neg h, fun hb hs => ?_⟩
  · exact ⟨_, if_pos ⟨hbits, hpage, hle⟩, rfl, rfl, fun n => ⟨Bus.pageOk_nil _ n, Bus.pageOk_nil _ n⟩,
      fun hi a ha => ⟨Bus.resolve_nil hi _ ha, Bus.resolve_nil hi _ ha⟩⟩
  · refine ⟨_, Bus.addRange_eq hb hs b side acc, rfl, rfl, fun hi a ha => ?_, fun n =>
      ⟨fun h => Bus.pageOk_sidePages h _ _ _ _, fun h => Bus.pageOk_sidePages h _ _ _ _⟩⟩
    cases acc <;>
      exact ⟨Bus.resolve_sidePages hi b (side != .write) base size _ b.readPages ha,
        Bus.resolve_sidePages hi b (side != .read) base size _ b.writePages ha⟩

end Sys2Proof.Machine
end

section
/-! SUPPORT. The turn of a CPU: which CPU steps under SCHEDULE = any (R130), and a step whose fetch faults (R120). -/

namespace Sys2Proof.Machine

open Sys2Proof.Config

/-- A CPU can step when it is started and not halted (R47, R236). -/
theorem Cpu.alive_iff (c : Cpu) : c.alive = true ↔ c.started = true ∧ c.halted = none := by simp [Cpu.alive]

section

variable {s : State} {id : CpuId}

/-- The step of the block on a CPU's turn is that CPU's step. -/
theorem step_of_turn (hs : s.session = none) (h : s.turn = some id) : step s = (s.select id).cpuStep := by
  simp only [step, State.blockStep, hs, h]

/-- The step of the block when no CPU can step is a move of the Clock. -/
theorem step_of_no_turn (hs : s.session = none) (h : s.turn = none) : step s = .next s.clockStep := by
  simp only [step, State.blockStep, hs, h]

/-- The CPU selected for the step is the stepping CPU. -/
@[simp] theorem State.cpu_select (id : CpuId) (s : State) : (s.select id).cpu = s.cpuOf id := by cases id <;> rfl

/-- Selecting a CPU changes no CPU. -/
@[simp] theorem State.cpuOf_select (id k : CpuId) (s : State) : (s.select id).cpuOf k = s.cpuOf k := by
  cases k <;> rfl

/-! ### SCHEDULE = any -/

/-- The turn under SCHEDULE = any is the choice among the CPUs that can step (R130). -/
theorem State.turn_any (h : s.params.schedule = .any) : s.turn =
    match (s.cpuOf .arm9).alive, (s.cpuOf .arm7).alive with
    | true, true => some (if scheduleChoice s.draws then .arm9 else .arm7)
    | true, false => some .arm9
    | false, true => some .arm7
    | false, false => none := by
  unfold State.turn
  rw [h]
  rfl

/-- The selection under SCHEDULE = any counts the choice. -/
theorem State.select_any (h : s.params.schedule = .any) :
    s.select id = { s with cur := id, draws := s.draws + 1 } := by
  rw [State.select, if_pos h]

/-- Under SCHEDULE = any the Clock does not move (log 18). -/
theorem State.clockStep_any (h : s.params.schedule = .any) : s.clockStep = s := by
  unfold State.clockStep
  rw [h]

end

/-- Settles O45: the turn by which of the two CPUs can step. -/
theorem anySchedule : Obligations.AnySchedule := by
  intro s hs hany
  have hturn := State.turn_any hany
  simp only [← Cpu.alive_iff, Bool.not_eq_true]
  refine ⟨fun h9 h7 => ?_, fun h9 h7 => ?_, fun h9 h7 => ?_, fun id hid => ?_, fun h9 h7 => ?_⟩
  · rw [hturn, h9, h7]
  · rw [hturn, h9, h7]
  · rw [hturn, h9, h7]
  · exact ⟨(Cpu.alive_iff _).2 (State.alive_of_turn hid), by rw [step_of_turn hs hid, State.select_any hany]⟩
  · rw [step_of_no_turn hs (by rw [hturn, h9, h7]), State.clockStep_any hany]

/-! ### A fetch that faults -/

/-- A step whose fetch faults halts the CPU with BusFault, at the cost of CLOCK_DIVIDER (R120, R230). -/
theorem State.cpuStep_fetch_fault {s s1 : State} {a : Word} (hi : s.clearPending.interruptDue = none)
    (hf : s.clearPending.fetch = .fault a s1) :
    s.cpuStep = .next (s.setCpu { s.cpu with
      halted := some { why := .busFault a, pc := s.cpu.pc }, pendingPC := none
      tick := s.cpu.tick + s.cpu.cfg.clockDivider }) := by
  obtain rfl : s1 = s.clearPending := State.eq_of_busRead32_fault hf
  simp only [State.cpuStep, hi, hf, State.retire_halt]
  simp [State.clearPending, State.divider]

/-- Settles O41: the step is that of the CPU whose turn it is, and its fetch has no effect. -/
theorem fetchFaultHalts : Obligations.FetchFaultHalts := by
  intro s s1 id a hs hturn hi hf
  refine ⟨_, (step_of_turn hs hturn).trans (State.cpuStep_fetch_fault hi hf), ?_, ?_, ?_, fun k hk => ?_⟩
  · rw [State.cpu_select]
    exact State.cpuOf_putCpu id _ (s.select id)
  · exact State.setCpu_mem _ _
  · exact State.setCpu_events _ _
  · exact (State.cpuOf_setCpu_ne hk _).trans (State.cpuOf_select id k s)

end Sys2Proof.Machine
end

section
/-! SUPPORT. What the decoder reads from a word: the slices of a literal and of a slice, and the rows of the opcode
table (R156) by the fields that their masks cover. -/

namespace Sys2Proof

/-! ### Slices (R11) -/

/-- A field of a literal is evaluated. -/
theorem bits_ofNat (lo len n : Nat) :
    bits lo len (BitVec.ofNat 32 n) = (BitVec.ofNat 32 n).extractLsb' lo len := rfl

/-- A bit of a literal is evaluated. -/
theorem bit_ofNat (k n : Nat) : bit k (BitVec.ofNat 32 n) = (BitVec.ofNat 32 n).getLsbD k := rfl

/-- A bit within a field. -/
theorem bit_eq_getLsbD_bits (lo len k : Nat) (hlo : lo ≤ k) (hk : k < lo + len) (w : Word) :
    bit k w = (bits lo len w).getLsbD (k - lo) := by
  simp [bit, bits, show k - lo < len by omega, show lo + (k - lo) = k by omega]

/-- A field whose value differs in one bit. -/
theorem bits_ne_of_bit (lo len k : Nat) (hlo : lo ≤ k) (hk : k < lo + len) {x : BitVec len} {w : Word}
    (h : bit k w ≠ x.getLsbD (k - lo)) : bits lo len w ≠ x :=
  fun e => h (by rw [bit_eq_getLsbD_bits lo len k hlo hk, e])

/-- A field within a field. -/
theorem bits_eq_extractLsb'_bits (lo len lo' len' : Nat) (hlo : lo ≤ lo') (hlen : lo' + len' ≤ lo + len) (w : Word) :
    bits lo' len' w = (bits lo len w).extractLsb' (lo' - lo) len' := by
  apply BitVec.eq_of_getLsbD_eq; intro i hi
  simp [bits, hi, show lo' - lo + i < len by omega, show lo + (lo' - lo + i) = lo' + i by omega]

/-- A field of one bit is that bit. -/
theorem bits_one (k : Nat) (x : BitVec 1) (w : Word) : bits k 1 w = x ↔ bit k w = x.getLsbD 0 := by
  rw [bit_eq_getLsbD_bits k 1 k (le_refl k) k.lt_succ_self, Nat.sub_self]
  exact ⟨fun h => h ▸ rfl, fun h => BitVec.eq_of_getLsbD_eq fun i hi => (Nat.lt_one_iff.1 hi) ▸ h⟩

/-! ### Rows -/

/-- A field with its value: a part of the pattern of a row. -/
structure RowField where
  lo : Nat
  len : Nat
  value : BitVec len

/-- The mask of a row, from its fields. -/
def rowMask : List RowField → Word
  | [] => 0#32
  | f :: fs => field f.lo (BitVec.allOnes f.len) ||| rowMask fs

/-- The value of a row, from its fields. -/
def rowValue : List RowField → Word
  | [] => 0#32
  | f :: fs => field f.lo f.value ||| rowValue fs

/-- A word in a row has the row's value in every field that the mask covers. -/
theorem bits_of_inRow {m v w : Word} (h : inRow m v w = true) (lo len : Nat) (hm : bits lo len m = BitVec.allOnes len) :
    bits lo len w = bits lo len v := by
  obtain rfl : w &&& m = v := by simpa [inRow] using h
  rw [show bits lo len (w &&& m) = bits lo len w &&& bits lo len m from BitVec.extractLsb'_and, hm, BitVec.and_allOnes]

/-- The mask of a field keeps that field alone. -/
theorem field_allOnes_and (lo len : Nat) (w : Word) :
    w &&& field lo (BitVec.allOnes len) = field lo (bits lo len w) := by
  apply BitVec.eq_of_getLsbD_eq; intro i hi
  by_cases hlo : i < lo
  · simp [field, hlo]
  · by_cases hlen : i - lo < len
    · simp [field, bits, hi, hlo, hlen, show lo + (i - lo) = i by omega]
    · simp [field, bits, hlo, hlen]

/-- The mask of a row covers its fields. -/
theorem bits_rowMask {f : RowField} (hf : f.lo + f.len ≤ 32) {fs : List RowField} (h : f ∈ fs) :
    bits f.lo f.len (rowMask fs) = BitVec.allOnes f.len := by
  induction fs with
  | nil => cases h
  | cons g gs ih =>
    rw [rowMask, bits_or]
    rcases List.mem_cons.1 h with rfl | h
    · rw [bits_field_self _ hf, BitVec.allOnes_or]
    · rw [ih h, BitVec.or_allOnes]

/-- A word is in the row of fields that do not contradict each other exactly when it has their values. -/
theorem inRow_iff (fs : List RowField) (hfs : ∀ f ∈ fs, f.lo + f.len ≤ 32 ∧ bits f.lo f.len (rowValue fs) = f.value)
    (w : Word) : inRow (rowMask fs) (rowValue fs) w = true ↔ ∀ f ∈ fs, bits f.lo f.len w = f.value := by
  constructor
  · intro h f hf
    obtain ⟨hle, hv⟩ := hfs f hf
    rw [bits_of_inRow h _ _ (bits_rowMask hle hf), hv]
  · clear hfs
    rw [inRow, beq_iff_eq]
    induction fs with
    | nil => exact fun _ => BitVec.and_zero
    | cons f fs ih =>
      intro h
      rw [rowMask, rowValue, BitVec.and_or_distrib_left, field_allOnes_and, h f List.mem_cons_self,
        ih fun g hg => h g (List.mem_cons_of_mem f hg)]

/-- A word is outside the conditional space when its condition field is 1111 (R151). -/
theorem conditional_eq_isSome (w : Word) : conditional w = (Cond.ofBits (bits 28 4 w)).isSome := by
  rw [conditional]
  generalize bits 28 4 w = b
  revert b
  decide

/-! ### The rows of the words that an instruction keeps (R195, R456, R603) -/

section

variable (w : Word)

/-- The words of `v4` with S H = 10 and L = 0 (R456). -/
theorem inRow_unpredLsx10 : inRow 0x0E1000F0#32 0x000000D0#32 w = true ↔
    bits 25 3 w = 0#3 ∧ bit 20 w = false ∧ bit 7 w = true ∧ bit 6 w = true ∧ bit 5 w = false ∧ bit 4 w = true :=
  (inRow_iff [⟨25, 3, 0#3⟩, ⟨20, 1, 0#1⟩, ⟨7, 1, 1#1⟩, ⟨6, 1, 1#1⟩, ⟨5, 1, 0#1⟩, ⟨4, 1, 1#1⟩] (by decide) w).trans
    (by simp [bits_one])

/-- The words of `v4` with S H = 11 and L = 0 (R456). -/
theorem inRow_unpredLsx11 : inRow 0x0E1000F0#32 0x000000F0#32 w = true ↔
    bits 25 3 w = 0#3 ∧ bit 20 w = false ∧ bit 7 w = true ∧ bit 6 w = true ∧ bit 5 w = true ∧ bit 4 w = true :=
  (inRow_iff [⟨25, 3, 0#3⟩, ⟨20, 1, 0#1⟩, ⟨7, 1, 1#1⟩, ⟨6, 1, 1#1⟩, ⟨5, 1, 1#1⟩, ⟨4, 1, 1#1⟩] (by decide) w).trans
    (by simp [bits_one])

/-- Class 011 with word[4] = 1 (R195). -/
theorem inRow_undefMedia : inRow 0x0E000010#32 0x06000010#32 w = true ↔ bits 25 3 w = 3#3 ∧ bit 4 w = true :=
  (inRow_iff [⟨25, 3, 3#3⟩, ⟨4, 1, 1#1⟩] (by decide) w).trans (by simp [bits_one])

/-- Class 001 with word[24:20] = 1x000 (R195). -/
theorem inRow_undefMsrImm : inRow 0x0FB00000#32 0x03000000#32 w = true ↔
    bits 25 3 w = 1#3 ∧ bits 23 2 w = 2#2 ∧ bit 21 w = false ∧ bit 20 w = false :=
  (inRow_iff [⟨25, 3, 1#3⟩, ⟨23, 2, 2#2⟩, ⟨21, 1, 0#1⟩, ⟨20, 1, 0#1⟩] (by decide) w).trans (by simp [bits_one])

/-- The multiply space with word[24:22] = 001 (R161, R195). -/
theorem inRow_undefMul : inRow 0x0FC000F0#32 0x00400090#32 w = true ↔
    bits 25 3 w = 0#3 ∧ bit 24 w = false ∧ bit 23 w = false ∧ bit 22 w = true ∧ bits 4 4 w = 9#4 :=
  (inRow_iff [⟨25, 3, 0#3⟩, ⟨24, 1, 0#1⟩, ⟨23, 1, 0#1⟩, ⟨22, 1, 1#1⟩, ⟨4, 4, 9#4⟩] (by decide) w).trans
    (by simp [bits_one])

/-- The multiply space with word[24] = 1 and word[21] = 1 (R161, R195). -/
theorem inRow_undefSwap21 : inRow 0x0F2000F0#32 0x01200090#32 w = true ↔
    bits 25 3 w = 0#3 ∧ bit 24 w = true ∧ bit 21 w = true ∧ bits 4 4 w = 9#4 :=
  (inRow_iff [⟨25, 3, 0#3⟩, ⟨24, 1, 1#1⟩, ⟨21, 1, 1#1⟩, ⟨4, 4, 9#4⟩] (by decide) w).trans (by simp [bits_one])

/-- The multiply space with word[24] = 1, word[21] = 0 and word[20] = 1 (R161, R195). -/
theorem inRow_undefSwap20 : inRow 0x0F3000F0#32 0x01100090#32 w = true ↔
    bits 25 3 w = 0#3 ∧ bit 24 w = true ∧ bit 21 w = false ∧ bit 20 w = true ∧ bits 4 4 w = 9#4 :=
  (inRow_iff [⟨25, 3, 0#3⟩, ⟨24, 1, 1#1⟩, ⟨21, 1, 0#1⟩, ⟨20, 1, 1#1⟩, ⟨4, 4, 9#4⟩] (by decide) w).trans
    (by simp [bits_one])

/-- The multiply space with word[24:23] = 11 and word[21:20] = 00 (R161, R195). -/
theorem inRow_undefSwap23 : inRow 0x0FB000F0#32 0x01800090#32 w = true ↔
    bits 25 3 w = 0#3 ∧ bit 24 w = true ∧ bit 23 w = true ∧ bit 21 w = false ∧ bit 20 w = false ∧ bits 4 4 w = 9#4 :=
  (inRow_iff [⟨25, 3, 0#3⟩, ⟨24, 1, 1#1⟩, ⟨23, 1, 1#1⟩, ⟨21, 1, 0#1⟩, ⟨20, 1, 0#1⟩, ⟨4, 4, 9#4⟩] (by decide) w).trans
    (by simp [bits_one])

/-- The words of the unconditional space with no instruction, by the tests of `decodeUncond` (R169, R603). -/
theorem isUnpredUncond_iff : isUnpredUncond w = true ↔ bits 28 4 w = 15#4 ∧ bits 25 3 w ≠ 5#3 ∧
    ¬(bits 26 2 w = 1#2 ∧ bit 24 w = true ∧ bits 20 3 w = 5#3 ∧ (bit 25 w = true → bit 4 w = false)) ∧
    bits 25 3 w ≠ 6#3 ∧ bits 24 4 w ≠ 14#4 := by
  have hblx : inRow 0xFE000000#32 0xFA000000#32 w = true ↔ bits 28 4 w = 15#4 ∧ bits 25 3 w = 5#3 :=
    (inRow_iff [⟨28, 4, 15#4⟩, ⟨25, 3, 5#3⟩] (by decide) w).trans (by simp)
  have hpldImm : inRow 0xFF700000#32 0xF5500000#32 w = true ↔
      bits 28 4 w = 15#4 ∧ bits 26 2 w = 1#2 ∧ bit 25 w = false ∧ bit 24 w = true ∧ bits 20 3 w = 5#3 :=
    (inRow_iff [⟨28, 4, 15#4⟩, ⟨26, 2, 1#2⟩, ⟨25, 1, 0#1⟩, ⟨24, 1, 1#1⟩, ⟨20, 3, 5#3⟩] (by decide) w).trans
      (by simp [bits_one])
  have hpldReg : inRow 0xFF700010#32 0xF7500000#32 w = true ↔ bits 28 4 w = 15#4 ∧ bits 26 2 w = 1#2 ∧
      bit 25 w = true ∧ bit 24 w = true ∧ bits 20 3 w = 5#3 ∧ bit 4 w = false :=
    (inRow_iff [⟨28, 4, 15#4⟩, ⟨26, 2, 1#2⟩, ⟨25, 1, 1#1⟩, ⟨24, 1, 1#1⟩, ⟨20, 3, 5#3⟩, ⟨4, 1, 0#1⟩] (by decide) w).trans
      (by simp [bits_one])
  have hldc : inRow 0xFE000000#32 0xFC000000#32 w = true ↔ bits 28 4 w = 15#4 ∧ bits 25 3 w = 6#3 :=
    (inRow_iff [⟨28, 4, 15#4⟩, ⟨25, 3, 6#3⟩] (by decide) w).trans (by simp)
  have hcdp : inRow 0xFF000000#32 0xFE000000#32 w = true ↔ bits 28 4 w = 15#4 ∧ bits 24 4 w = 14#4 :=
    (inRow_iff [⟨28, 4, 15#4⟩, ⟨24, 4, 14#4⟩] (by decide) w).trans (by simp)
  simp only [isUnpredUncond, conditional, Bool.and_eq_true, Bool.not_eq_true', Bool.eq_false_iff, ne_eq, bne_iff_ne,
    hblx, hpldImm, hpldReg, hldc, hcdp]
  by_cases h : bits 28 4 w = 15#4
  · cases bit 25 w <;> simp [h, and_assoc]
  · simp [h]

end

end Sys2Proof
end

section
/-! SUPPORT. The decoder answers well-formed instructions (R153, R156): entry by entry, the instruction is one of the
variant, or keeps a word that lies in its row. -/

namespace Sys2Proof

/-! ### The miscellaneous space (R163) -/

/-- A cell of `Misc` that holds no instruction of the variant, by op = word[22:21] and lo = word[7:4]. -/
def undefCell (v : Variant) (op : BitVec 2) (lo : BitVec 4) : Bool :=
  match v, lo.toNat with
  | _, 0 => false
  | v, 1 => op.toNat != 1 && (op.toNat != 3 || v == .v4)
  | .v5, 3 => op.toNat != 1
  | .v5, 5 => false
  | .v5, 7 => op.toNat != 1
  | .v5, 8 => false
  | .v5, 10 => false
  | .v5, 12 => false
  | .v5, 14 => false
  | _, _ => true

/-- The key word[27:20] : word[7:4] (R150) of a word of the miscellaneous space, in its place. -/
def miscKey (op : BitVec 2) (lo : BitVec 4) : Word := 0x01000000#32 ||| (field 21 op ||| field 4 lo)

/-- A word of the miscellaneous space has the key of its cell. -/
theorem key_of_misc {w : Word} (h25 : bits 25 3 w = 0#3) (h23 : bits 23 2 w = 2#2) (h20 : bit 20 w = false) :
    w &&& 0x0FF000F0#32 = miscKey (bits 21 2 w) (bits 4 4 w) := by
  have hsplit : w &&& 0x0FF000F0#32 = field 25 (bits 25 3 w) ||| field 23 (bits 23 2 w) ||| field 20 (bits 20 1 w) |||
      (field 21 (bits 21 2 w) ||| field 4 (bits 4 4 w)) := by
    simp only [← field_allOnes_and, ← BitVec.and_or_distrib_left]
    rfl
  rw [hsplit, h25, h23, (bits_one 20 0#1 w).2 h20]
  rfl

/-- A row whose mask lies within the key looks at the key alone. -/
theorem inRow_key (m v w : Word) (hm : 0x0FF000F0#32 &&& m = m) : inRow m v (w &&& 0x0FF000F0#32) = inRow m v w := by
  rw [inRow, inRow, BitVec.and_assoc, hm]

/-- The UNDEFINED words of the miscellaneous space are told by their condition and their key. -/
theorem isUndefMisc_key (v : Variant) (w : Word) :
    isUndefMisc v w = (conditional w && isUndefMisc v (w &&& 0x0FF000F0#32)) := by
  have hc : conditional (w &&& 0x0FF000F0#32) = true := by
    rw [conditional, show bits 28 4 (w &&& 0x0FF000F0#32) = bits 28 4 w &&& 0#4 from BitVec.extractLsb'_and,
      BitVec.and_zero]
    rfl
  simp [isUndefMisc, inRow_key, hc, Bool.and_assoc]

/-- The keys of the UNDEFINED words, by their cell. -/
theorem isUndefMisc_miscKey : ∀ (v : Variant) (op : BitVec 2) (lo : BitVec 4), isUndefMisc v (miscKey op lo) =
    (!(lo.getLsbD 3 && lo.getLsbD 0) && undefCell v op lo)
  | .v4 => by decide
  | .v5 => by decide

/-- The UNDEFINED words of the miscellaneous space, by the tests of the decoder. -/
theorem isUndefMisc_iff (v : Variant) (w : Word) : isUndefMisc v w = true ↔ conditional w = true ∧
    (bits 25 3 w = 0#3 ∧ bits 23 2 w = 2#2 ∧ bit 20 w = false) ∧ (bit 7 w && bit 4 w) = false ∧
    undefCell v (bits 21 2 w) (bits 4 4 w) = true := by
  have hspace : inRow 0x0F900000#32 0x01000000#32 w = true ↔ bits 25 3 w = 0#3 ∧ bits 23 2 w = 2#2 ∧ bit 20 w = false :=
    (inRow_iff [⟨25, 3, 0#3⟩, ⟨23, 2, 2#2⟩, ⟨20, 1, 0#1⟩] (by decide) w).trans (by simp [bits_one])
  by_cases h : bits 25 3 w = 0#3 ∧ bits 23 2 w = 2#2 ∧ bit 20 w = false
  · obtain ⟨h25, h23, h20⟩ := h
    rw [isUndefMisc_key, key_of_misc h25 h23 h20, isUndefMisc_miscKey,
      ← bit_eq_getLsbD_bits 4 4 7 (by decide) (by decide), ← bit_eq_getLsbD_bits 4 4 4 (by decide) (by decide)]
    cases bit 7 w <;> simp [h25, h23, h20]
  · simp [isUndefMisc, Bool.eq_false_iff.2 (hspace.not.2 h), h]

/-- A cell without instruction answers UNDEFINED. -/
theorem misc_of_undefCell {v : Variant} {w : Word} (h : undefCell v (bits 21 2 w) (bits 4 4 w) = true) (c : Cond) :
    misc v c w = .undefMisc w := by
  unfold undefCell at h
  unfold misc
  split at h
  case h_2 v _ _ _ => cases v <;> simp_all
  all_goals simp_all

/-- The DSP multiplies are instructions of `v5`. -/
theorem dspMul_wellFormed (c : Cond) (w : Word) : (dspMul c w).wellFormed .v5 = true := by
  unfold dspMul
  split
  case h_2 => split <;> rfl
  all_goals rfl

/-- The saturating instructions are instructions of `v5`. -/
theorem qArith_wellFormed (c : Cond) (w : Word) : (qArith c w).wellFormed .v5 = true := by
  unfold qArith
  split <;> rfl

/-- A cell with an instruction of the variant answers it. -/
theorem misc_wellFormed_of_not_undefCell {v : Variant} {w : Word}
    (h : undefCell v (bits 21 2 w) (bits 4 4 w) = false) (c : Cond) : (misc v c w).wellFormed v = true := by
  unfold undefCell at h
  unfold misc
  split at h <;> simp_all only [dspMul_wellFormed, qArith_wellFormed, bne_eq_false_iff_eq, if_true, reduceCtorEq]
  case h_1 => split <;> rfl
  case h_2 v _ _ _ =>
    split_ifs with h1 h3
    · rfl
    · rw [h3.2]; rfl
    · cases v <;> simp_all
  all_goals rfl

/-! ### The entries -/

/-- A kept word of the conditional space in its row. -/
theorem kept_wellFormed {m u w : Word} (hc : conditional w = true) (h : inRow m u w = true) :
    (conditional w && inRow m u w) = true := Bool.and_eq_true_iff.2 ⟨hc, h⟩

section

variable {v : Variant} {w : Word}

/-- `Misc`: a cell holds an instruction of the variant or answers UNDEFINED. -/
theorem misc_wellFormed (hc : conditional w = true) (h25 : bits 25 3 w = 0#3)
    (hspace : bits 23 2 w = 2#2 ∧ bit 20 w = false) (h74 : (bit 7 w && bit 4 w) = false) (c : Cond) :
    (misc v c w).wellFormed v = true := by
  cases h : undefCell v (bits 21 2 w) (bits 4 4 w) with
  | true =>
    rw [misc_of_undefCell h]
    exact (isUndefMisc_iff v w).2 ⟨hc, ⟨h25, hspace⟩, h74, h⟩
  | false => exact misc_wellFormed_of_not_undefCell h c

/-- `DP_IMM`: every opcode exists in both variants (R160, R164). -/
theorem dpImm_wellFormed (c : Cond) (w : Word) : (dpImm c w).wellFormed v = true := by
  unfold dpImm
  split <;> rfl

/-- `DP_IMMSHIFT`: every opcode exists in both variants (R160, R164). -/
theorem dpImmShift_wellFormed (c : Cond) (w : Word) : (dpImmShift c w).wellFormed v = true := by
  unfold dpImmShift
  split <;> rfl

/-- `DP_REGSHIFT`: every opcode exists in both variants (R160, R164). -/
theorem dpRegShift_wellFormed (c : Cond) (w : Word) : (dpRegShift c w).wellFormed v = true := by
  unfold dpRegShift
  split <;> rfl

/-- `MultiplySpace`: the four UNDEFINED shapes lie in their rows (R161, R195). -/
theorem multiplySpace_wellFormed (hc : conditional w = true) (h25 : bits 25 3 w = 0#3) (hlo : bits 4 4 w = 9#4)
    (c : Cond) : (multiplySpace c w).wellFormed v = true := by
  unfold multiplySpace
  split_ifs with h24 h21 h20 h23 h22 h23 h22 h21 h21 h22
  · exact kept_wellFormed hc ((inRow_undefSwap21 w).2 ⟨h25, h24, h21, hlo⟩)
  · exact kept_wellFormed hc ((inRow_undefSwap20 w).2 ⟨h25, h24, Bool.of_not_eq_true h21, h20, hlo⟩)
  · exact kept_wellFormed hc ((inRow_undefSwap23 w).2
      ⟨h25, h24, h23, Bool.of_not_eq_true h21, Bool.of_not_eq_true h20, hlo⟩)
  iterate 6 · rfl
  · exact kept_wellFormed hc ((inRow_undefMul w).2
      ⟨h25, Bool.of_not_eq_true h24, Bool.of_not_eq_true h23, h22, hlo⟩)
  · rfl
  · rfl

/-- `ExtraLoadStore`: on `v4` the words without instruction lie in the two rows of R456. -/
theorem extraLoadStore_wellFormed (hc : conditional w = true) (h25 : bits 25 3 w = 0#3) (h7 : bit 7 w = true)
    (h4 : bit 4 w = true) (c : Cond) : (extraLoadStore v c w).wellFormed v = true := by
  unfold extraLoadStore
  cases v with
  | v4 =>
    dsimp only
    split_ifs with h6 h5 h20 h22 h20
    · rfl
    · rfl
    · exact kept_wellFormed hc ((inRow_unpredLsx11 w).2 ⟨h25, Bool.of_not_eq_true h20, h7, h6, h5, h4⟩)
    · rfl
    · rfl
    · exact kept_wellFormed hc ((inRow_unpredLsx10 w).2
        ⟨h25, Bool.of_not_eq_true h20, h7, h6, Bool.of_not_eq_true h5, h4⟩)
    all_goals rfl
  | v5 =>
    dsimp only
    split_ifs <;> rfl

/-- Class 000 (R160). -/
theorem class000_wellFormed (hc : conditional w = true) (h25 : bits 25 3 w = 0#3) (c : Cond) :
    (class000 v c w).wellFormed v = true := by
  unfold class000
  split_ifs with hmul hlsx hmisc
  · exact multiplySpace_wellFormed hc h25 hmul c
  · exact extraLoadStore_wellFormed hc h25 (Bool.and_eq_true_iff.1 hlsx).1 (Bool.and_eq_true_iff.1 hlsx).2 c
  · exact misc_wellFormed hc h25 hmisc (Bool.of_not_eq_true hlsx) c
  · exact dpRegShift_wellFormed c w
  · exact dpImmShift_wellFormed c w

/-- Class 001 (R164). -/
theorem class001_wellFormed (hc : conditional w = true) (h25 : bits 25 3 w = 1#3) (c : Cond) :
    (class001 c w).wellFormed v = true := by
  unfold class001
  split_ifs with hmisc h21
  · rfl
  · exact kept_wellFormed hc ((inRow_undefMsrImm w).2 ⟨h25, hmisc.1, Bool.of_not_eq_true h21, hmisc.2⟩)
  · exact dpImm_wellFormed c w

/-- Class 010 (R165). -/
theorem class010_wellFormed (c : Cond) (w : Word) : (class010 c w).wellFormed v = true := by
  unfold class010
  dsimp only
  split <;> split_ifs <;> rfl

/-- Class 011 (R165). -/
theorem class011_wellFormed (hc : conditional w = true) (h25 : bits 25 3 w = 3#3) (c : Cond) :
    (class011 c w).wellFormed v = true := by
  unfold class011
  dsimp only
  split
  next h4 => exact kept_wellFormed hc ((inRow_undefMedia w).2 ⟨h25, h4⟩)
  next => split <;> split_ifs <;> rfl

/-- Class 100 (R166). -/
theorem class100_wellFormed (c : Cond) (w : Word) : (class100 c w).wellFormed v = true := by
  unfold class100
  dsimp only
  split
  case h_2 => split_ifs <;> rfl
  all_goals rfl

/-- Class 101 (R166). -/
theorem class101_wellFormed (c : Cond) (w : Word) : (class101 c w).wellFormed v = true := by
  unfold class101
  split_ifs <;> rfl

/-- Class 110 (R167). -/
theorem class110_wellFormed (c : Cond) (w : Word) : (class110 v c w).wellFormed v = true := by
  unfold class110 ldcStcV5
  cases v <;> dsimp only <;> split_ifs <;> rfl

/-- Class 111 (R167). -/
theorem class111_wellFormed (c : Cond) (w : Word) : (class111 c w).wellFormed v = true := by
  unfold class111
  split_ifs <;> rfl

/-- The conditional space (R160 to R167). -/
theorem decodeCond_wellFormed (hc : conditional w = true) (c : Cond) : (decodeCond v c w).wellFormed v = true := by
  have hcls : ∀ {n : Nat}, (bits 25 3 w).toNat = n → bits 25 3 w = BitVec.ofNat 3 n := fun h => by simp [← h]
  unfold decodeCond
  split
  next h => exact class000_wellFormed hc (hcls h) c
  next h => exact class001_wellFormed hc (hcls h) c
  next => exact class010_wellFormed c w
  next h => exact class011_wellFormed hc (hcls h) c
  next => exact class100_wellFormed c w
  next => exact class101_wellFormed c w
  next => exact class110_wellFormed c w
  next => exact class111_wellFormed c w

/-- The unconditional space of `v5` (R169). -/
theorem decodeUncond_wellFormed (h28 : bits 28 4 w = 15#4) : (decodeUncond w).wellFormed .v5 = true := by
  unfold decodeUncond
  split_ifs with hblx hpld h25 h4 hldc h20 hcdp h4 h20
  · rfl
  · refine (isUnpredUncond_iff w).2 ⟨h28, hblx, fun h => ?_, fun h => ?_, fun h => ?_⟩
    · exact Bool.false_ne_true ((h.2.2.2 h25).symm.trans h4)
    · exact absurd hpld.1 (by rw [bits_eq_extractLsb'_bits 25 3 26 2 (by decide) (by decide), h]; decide)
    · exact absurd hpld.1 (by rw [bits_eq_extractLsb'_bits 24 4 26 2 (by decide) (by decide), h]; decide)
  iterate 7 · rfl
  · exact (isUnpredUncond_iff w).2 ⟨h28, hblx, fun h => hpld ⟨h.1, h.2.1, h.2.2.1⟩, hldc, hcdp⟩

end

/-- Settles O55: each entry of the decoder answers an instruction of the variant or keeps a word of its row. -/
theorem decodeIsWellFormed : Obligations.DecodeIsWellFormed := by
  intro v w
  unfold decode
  split
  next c hc => exact decodeCond_wellFormed (by rw [conditional_eq_isSome, hc]; rfl) c
  next hc =>
    have hcond : conditional w = false := by rw [conditional_eq_isSome, hc]; rfl
    cases v with
    | v4 => exact congrArg not hcond
    | v5 => exact decodeUncond_wellFormed (by simpa [conditional] using hcond)

end Sys2Proof
end

section
/-! SUPPORT. The fields of the words that `encode` builds (R171 to R181): one lemma for each format that several
instructions share says what the decoder reads from a word of the format. A format's base is 0 in the fields that the
format adds. -/

namespace Sys2Proof

/-! ### Operands in bits 11:0 -/

section

variable {x y : Word}

/-- Bits 11:0 alone determine the fields below bit 12. -/
theorem bits_of_low (h : bits 0 12 x = bits 0 12 y) (lo len : Nat) (hle : lo + len ≤ 12) :
    bits lo len x = bits lo len y := by
  rw [bits_eq_extractLsb'_bits 0 12 lo len lo.zero_le (by omega), h,
    ← bits_eq_extractLsb'_bits 0 12 lo len lo.zero_le (by omega)]

/-- Bits 11:0 alone determine a bit below bit 12. -/
theorem bit_of_low (h : bits 0 12 x = bits 0 12 y) (k : Nat) (hk : k < 12) : bit k x = bit k y := by
  rw [bit_eq_getLsbD_bits 0 12 k k.zero_le (by omega), h, ← bit_eq_getLsbD_bits 0 12 k k.zero_le (by omega)]

/-- The operand of F1 and F15 is read back. -/
theorem immOp_of_low {o : ImmOp} (h : bits 0 12 x = bits 0 12 o.encode) : immOp x = o := by
  rw [immOp, bits_of_low h 8 4 (by decide), bits_of_low h 0 8 (by decide)]
  simp [ImmOp.encode, bits_or, bits_field_self, bits_field_above, bits_field_below]

/-- The operand of F15 is read back from a word that is 0 below it. -/
theorem immOp_or_encode (h : bits 0 12 x = 0#12) (o : ImmOp) : immOp (x ||| o.encode) = o :=
  immOp_of_low (by rw [bits_or, h, BitVec.zero_or])

/-- The operand of F2 and F9 is read back. -/
theorem shiftImmOp_of_low {o : ShiftImmOp} (h : bits 0 12 x = bits 0 12 o.encode) : shiftImmOp x = o := by
  rw [shiftImmOp, bits_of_low h 7 5 (by decide), bits_of_low h 5 2 (by decide), bits_of_low h 0 4 (by decide)]
  simp [ShiftImmOp.encode, bits_or, bits_field_self, bits_field_above, bits_field_below]

/-- Bit 4 of the operand of F2 and F9 is 0. -/
theorem bit4_of_low_shiftImmOp {o : ShiftImmOp} (h : bits 0 12 x = bits 0 12 o.encode) : bit 4 x = false := by
  rw [bit_of_low h 4 (by decide)]
  simp [ShiftImmOp.encode, bit_or, bit_field]

/-- The operand of F3 is read back. -/
theorem shiftRegOp_of_low {o : ShiftRegOp} (h : bits 0 12 x = bits 0 12 o.encode) : shiftRegOp x = o := by
  rw [shiftRegOp, bits_of_low h 8 4 (by decide), bits_of_low h 5 2 (by decide), bits_of_low h 0 4 (by decide)]
  simp [ShiftRegOp.encode, bits_or, bits_field_self, bits_field_above, bits_field_below, bits_ofNat]

/-- An offset in bits 11:0 is read back. -/
theorem offset12_of_low {off : BitVec 12} (h : bits 0 12 x = bits 0 12 (field 0 off)) : bits 0 12 x = off :=
  h.trans (bits_field_self 0 (by decide) off)

/-- The offset of F7 is put together from its two halves (R192). -/
theorem offset8_halves (off : BitVec 8) : (off.extractLsb' 4 4 ++ off.extractLsb' 0 4 : BitVec 8) = off :=
  (BitVec.extractLsb'_append_extractLsb'_eq_extractLsb' (by decide)).trans BitVec.extractLsb'_eq_self

/-- The operand of F1 fits bits 11:0. -/
theorem ImmOp.encode_tail (o : ImmOp) : bits 12 20 o.encode = 0#20 := by simp [ImmOp.encode, bits_or, bits_field_above]

/-- The operand of F2 fits bits 11:0. -/
theorem ShiftImmOp.encode_tail (o : ShiftImmOp) : bits 12 20 o.encode = 0#20 := by
  simp [ShiftImmOp.encode, bits_or, bits_field_above]

/-- The operand of F3 fits bits 11:0. -/
theorem ShiftRegOp.encode_tail (o : ShiftRegOp) : bits 12 20 o.encode = 0#20 := by
  simp [ShiftRegOp.encode, bits_or, bits_field_above, bits_ofNat]

/-- Nothing is read above bits 11:0 of an operand. -/
theorem bits_of_tail (h : bits 12 20 x = 0#20) (lo len : Nat) (hlo : 12 ≤ lo) (hle : lo + len ≤ 32) :
    bits lo len x = 0#len := by
  rw [bits_eq_extractLsb'_bits 12 20 lo len hlo hle, h, BitVec.extractLsb'_zero]

/-- No bit is read above bits 11:0 of an operand. -/
theorem bit_of_tail (h : bits 12 20 x = 0#20) (k : Nat) (hlo : 12 ≤ k) (hle : k < 32) : bit k x = false := by
  rw [bit_eq_getLsbD_bits 12 20 k hlo hle, h, BitVec.getLsbD_zero]

end

/-! ### The formats -/

section

variable {base x : Word} {c : Cond}

/-- F1, F2, F3 (R171). -/
theorem fields_dp {sf : Bool} {rn rd : RegNo} {tail : Word} (hx : encodeDp base c sf rn rd tail = x)
    (hb : inRow 0xF00FFFFF#32 0#32 base = true) (ht : bits 12 20 tail = 0#20) :
    Cond.ofBits (bits 28 4 x) = some c ∧ bits 25 3 x = bits 25 3 base ∧ bits 21 4 x = bits 21 4 base ∧
    bit 20 x = (bit 20 base || sf) ∧ bits 16 4 x = rn ∧ bits 12 4 x = rd ∧ bits 0 12 x = bits 0 12 tail := by
  have h28 := bits_of_inRow hb 28 4 (by decide)
  have h16 := bits_of_inRow hb 16 4 (by decide)
  have h12 := bits_of_inRow hb 12 4 (by decide)
  have h0 := bits_of_inRow hb 0 12 (by decide)
  subst hx
  refine ⟨cond_dp h28 (bits_of_tail ht _ _ (by decide) (by decide)) _ _ _ _, ?_⟩
  simp [encodeDp, bits_or, bit_or, h16, h12, h0, bits_of_tail ht, bit_of_tail ht, bits_field_self, bits_field_above,
    bits_field_below, bit_field, flag, bits_ofNat]

/-- F8, F9 (R175). -/
theorem fields_ls {u w : Bool} {rn rd : RegNo} {tail : Word} (hx : encodeLs base c u w rn rd tail = x)
    (hb : inRow 0xF0AFFFFF#32 0#32 base = true) (ht : bits 12 20 tail = 0#20) :
    Cond.ofBits (bits 28 4 x) = some c ∧ bits 25 3 x = bits 25 3 base ∧ bit 24 x = bit 24 base ∧ bit 23 x = u ∧
    bit 22 x = bit 22 base ∧ bit 21 x = w ∧ bit 20 x = bit 20 base ∧ bits 16 4 x = rn ∧ bits 12 4 x = rd ∧
    bits 0 12 x = bits 0 12 tail := by
  have h28 := bits_of_inRow hb 28 4 (by decide)
  have h23 := (bits_one 23 0#1 base).1 (bits_of_inRow hb 23 1 (by decide))
  have h21 := (bits_one 21 0#1 base).1 (bits_of_inRow hb 21 1 (by decide))
  have h16 := bits_of_inRow hb 16 4 (by decide)
  have h12 := bits_of_inRow hb 12 4 (by decide)
  have h0 := bits_of_inRow hb 0 12 (by decide)
  subst hx
  refine ⟨cond_ls h28 (bits_of_tail ht _ _ (by decide) (by decide)) _ _ _ _ _, ?_⟩
  simp [encodeLs, bits_or, bit_or, h23, h21, h16, h12, h0, bits_of_tail ht, bit_of_tail ht, bits_field_self,
    bits_field_above, bits_field_below, bit_field, flag, bits_ofNat]

/-- F26 (R181). -/
theorem fields_pld {u : Bool} {rn : RegNo} {tail : Word} (hx : base ||| flag 23 u ||| field 16 rn ||| tail = x)
    (hb : inRow 0x008F0FFF#32 0#32 base = true) (ht : bits 12 20 tail = 0#20) :
    bits 28 4 x = bits 28 4 base ∧ bits 26 2 x = bits 26 2 base ∧ bits 25 3 x = bits 25 3 base ∧
    bit 25 x = bit 25 base ∧ bit 24 x = bit 24 base ∧ bit 23 x = u ∧ bits 20 3 x = bits 20 3 base ∧
    bits 16 4 x = rn ∧ bits 0 12 x = bits 0 12 tail := by
  have h23 := (bits_one 23 0#1 base).1 (bits_of_inRow hb 23 1 (by decide))
  have h16 := bits_of_inRow hb 16 4 (by decide)
  have h0 := bits_of_inRow hb 0 12 (by decide)
  subst hx
  simp [bits_or, bit_or, h23, h16, h0, bits_of_tail ht, bit_of_tail ht, bits_field_self, bits_field_above,
    bits_field_below, bit_field, flag, bits_ofNat]

/-- F7 (R174). -/
theorem fields_lsx {p u w : Bool} {rn rd : RegNo} {hi lo : BitVec 4} (hx : encodeLsx base c p u w rn rd hi lo = x)
    (hb : inRow 0xF1AFFF0F#32 0#32 base = true) :
    Cond.ofBits (bits 28 4 x) = some c ∧ bits 25 3 x = bits 25 3 base ∧ bit 24 x = p ∧ bit 23 x = u ∧
    bit 22 x = bit 22 base ∧ bit 21 x = w ∧ bit 20 x = bit 20 base ∧ bits 16 4 x = rn ∧ bits 12 4 x = rd ∧
    bits 8 4 x = hi ∧ bits 4 4 x = bits 4 4 base ∧ bit 7 x = bit 7 base ∧ bit 6 x = bit 6 base ∧
    bit 5 x = bit 5 base ∧ bit 4 x = bit 4 base ∧ bits 0 4 x = lo := by
  have h28 := bits_of_inRow hb 28 4 (by decide)
  have h24 := (bits_one 24 0#1 base).1 (bits_of_inRow hb 24 1 (by decide))
  have h23 := (bits_one 23 0#1 base).1 (bits_of_inRow hb 23 1 (by decide))
  have h21 := (bits_one 21 0#1 base).1 (bits_of_inRow hb 21 1 (by decide))
  have h16 := bits_of_inRow hb 16 4 (by decide)
  have h12 := bits_of_inRow hb 12 4 (by decide)
  have h8 := bits_of_inRow hb 8 4 (by decide)
  have h0 := bits_of_inRow hb 0 4 (by decide)
  subst hx
  refine ⟨cond_lsx h28 _ _ _ _ _ _ _ _, ?_⟩
  simp [encodeLsx, bits_or, bit_or, h24, h23, h21, h16, h12, h8, h0, bits_field_self, bits_field_above,
    bits_field_below, bit_field, flag, bits_ofNat]

/-- F4, F5, F6 (R172, R173), and F18 (R179), which has no bit S. -/
theorem fields_regs {sf : Bool} {r16 r12 r8 r0 : RegNo} (hx : encodeRegs base c sf r16 r12 r8 r0 = x)
    (hb : inRow 0xF01FFF0F#32 0#32 base = true) :
    Cond.ofBits (bits 28 4 x) = some c ∧ bits 25 3 x = bits 25 3 base ∧ bits 23 2 x = bits 23 2 base ∧
    bit 24 x = bit 24 base ∧ bit 23 x = bit 23 base ∧ bit 22 x = bit 22 base ∧ bit 21 x = bit 21 base ∧
    bit 20 x = sf ∧ bits 16 4 x = r16 ∧ bits 12 4 x = r12 ∧ bits 8 4 x = r8 ∧ bits 4 4 x = bits 4 4 base ∧
    bit 7 x = bit 7 base ∧ bits 0 4 x = r0 := by
  have h28 := bits_of_inRow hb 28 4 (by decide)
  have h20 := (bits_one 20 0#1 base).1 (bits_of_inRow hb 20 1 (by decide))
  have h16 := bits_of_inRow hb 16 4 (by decide)
  have h12 := bits_of_inRow hb 12 4 (by decide)
  have h8 := bits_of_inRow hb 8 4 (by decide)
  have h0 := bits_of_inRow hb 0 4 (by decide)
  subst hx
  refine ⟨cond_regs h28 _ _ _ _ _ _, ?_⟩
  simp [encodeRegs, bits_or, bit_or, h20, h16, h12, h8, h0, bits_field_self, bits_field_above, bits_field_below,
    bit_field, flag, bits_ofNat]

/-- F19 (R179). -/
theorem fields_dsp {r16 r12 r8 r0 : RegNo} {yh xh : Half} (hx : encodeDsp base c r16 r12 r8 yh xh r0 = x)
    (hb : inRow 0xF00FFF6F#32 0#32 base = true) :
    Cond.ofBits (bits 28 4 x) = some c ∧ bits 25 3 x = bits 25 3 base ∧ bits 23 2 x = bits 23 2 base ∧
    bit 22 x = bit 22 base ∧ bit 21 x = bit 21 base ∧ bit 20 x = bit 20 base ∧ bits 16 4 x = r16 ∧
    bits 12 4 x = r12 ∧ bits 8 4 x = r8 ∧ bit 7 x = bit 7 base ∧ bit 6 x = yh.bit ∧ bit 5 x = xh.bit ∧
    bit 4 x = bit 4 base ∧ bits 0 4 x = r0 := by
  have h28 := bits_of_inRow hb 28 4 (by decide)
  have h16 := bits_of_inRow hb 16 4 (by decide)
  have h12 := bits_of_inRow hb 12 4 (by decide)
  have h8 := bits_of_inRow hb 8 4 (by decide)
  have h6 := (bits_one 6 0#1 base).1 (bits_of_inRow hb 6 1 (by decide))
  have h5 := (bits_one 5 0#1 base).1 (bits_of_inRow hb 5 1 (by decide))
  have h0 := bits_of_inRow hb 0 4 (by decide)
  subst hx
  refine ⟨cond_dsp h28 _ _ _ _ _ _ _, ?_⟩
  simp [encodeDsp, bits_or, bit_or, h16, h12, h8, h6, h5, h0, bits_field_self, bits_field_above, bits_field_below,
    bit_field, flag, bits_ofNat]

/-- F24 (R180). -/
theorem fields_ldc {p u n w : Bool} {rn crd cp : BitVec 4} {off : BitVec 8}
    (hx : encodeLdc base p u n w rn crd cp off = x) (hb : inRow 0x01EFFFFF#32 0#32 base = true) :
    bits 28 4 x = bits 28 4 base ∧ bits 26 2 x = bits 26 2 base ∧ bits 25 3 x = bits 25 3 base ∧ bit 24 x = p ∧
    bit 23 x = u ∧ bit 22 x = n ∧ bit 21 x = w ∧ bit 20 x = bit 20 base ∧ bits 16 4 x = rn ∧ bits 12 4 x = crd ∧
    bits 8 4 x = cp ∧ bits 0 8 x = off := by
  have h24 := (bits_one 24 0#1 base).1 (bits_of_inRow hb 24 1 (by decide))
  have h23 := (bits_one 23 0#1 base).1 (bits_of_inRow hb 23 1 (by decide))
  have h22 := (bits_one 22 0#1 base).1 (bits_of_inRow hb 22 1 (by decide))
  have h21 := (bits_one 21 0#1 base).1 (bits_of_inRow hb 21 1 (by decide))
  have h16 := bits_of_inRow hb 16 4 (by decide)
  have h12 := bits_of_inRow hb 12 4 (by decide)
  have h8 := bits_of_inRow hb 8 4 (by decide)
  have h0 := bits_of_inRow hb 0 8 (by decide)
  subst hx
  simp [encodeLdc, bits_or, bit_or, h24, h23, h22, h21, h16, h12, h8, h0, bits_field_self, bits_field_above,
    bits_field_below, bit_field, flag, bits_ofNat]

/-- A base with its condition is 0 where the base is, below bit 28. -/
theorem inRow_or_cond {m : Word} (hb : inRow m 0#32 base = true) (hm : bits 28 4 m = 0#4) :
    inRow m 0#32 (base ||| field 28 c.bits) = true := by
  have hc : field 28 c.bits &&& m = 0#32 := by
    apply BitVec.eq_of_getLsbD_eq; intro i hi
    by_cases h : i < 28
    · simp [field, h]
    · have := bit_eq_getLsbD_bits 28 4 i (by omega) (by omega) m
      rw [hm, BitVec.getLsbD_zero] at this
      simp [show m.getLsbD i = false from this]
  have hbm : base &&& m = 0#32 := by simpa [inRow] using hb
  rw [inRow, beq_iff_eq, BitVec.and_comm, BitVec.and_or_distrib_left, BitVec.and_comm m, hbm, BitVec.and_comm m, hc]
  rfl

end

end Sys2Proof
end

section
/-! SUPPORT. Decode of encode for data processing (R160, R164, R171): the opcode is read back from word[24:21], the
operand form from the class and from bits 7 and 4. -/

namespace Sys2Proof.Machine

/-- The number of an opcode (R310 to R325). -/
def DpOp.code : DpOp → BitVec 4
  | .and => 0#4 | .eor => 1#4 | .sub => 2#4 | .rsb => 3#4 | .add => 4#4 | .adc => 5#4 | .sbc => 6#4 | .rsc => 7#4
  | .tst => 8#4 | .teq => 9#4 | .cmp => 10#4 | .cmn => 11#4 | .orr => 12#4 | .mov => 13#4 | .bic => 14#4 | .mvn => 15#4

/-- Bits 31:12 of an opcode and the class of its form: the compare and test opcodes have S set (R155). -/
def DpOp.base (op : DpOp) (cls : BitVec 3) : Word := field 25 cls ||| field 21 op.code ||| flag 20 op.testsOnly

/-- The class of an operand form (R160, R164). -/
def DpOperand.cls : DpOperand → BitVec 3
  | .imm _ => 1#3
  | .immShift _ => 0#3
  | .regShift _ => 0#3

/-- Bits 11:0 of an operand form (R171). -/
def DpOperand.encode : DpOperand → Word
  | .imm o => o.encode
  | .immShift o => o.encode
  | .regShift o => o.encode

/-- The word of a data-processing instruction. -/
theorem encode_dpInstr (op : DpOp) (c : Cond) (sf : Bool) (rn rd : RegNo) (o : DpOperand) :
    encode (dpInstr op c sf rn rd o) = encodeDp (op.base o.cls) c (op.testsOnly || sf) rn rd o.encode := by
  cases o <;> dsimp only [DpOperand.cls] <;> cases op <;> rfl

/-- The bits of an opcode's base. -/
theorem DpOp.fields_base (op : DpOp) (cls : BitVec 3) : inRow 0xF00FFFFF#32 0#32 (op.base cls) = true ∧
    bits 25 3 (op.base cls) = cls ∧ bits 21 4 (op.base cls) = op.code ∧ bit 20 (op.base cls) = op.testsOnly := by
  refine ⟨(inRow_iff [⟨28, 4, 0#4⟩, ⟨0, 20, 0#20⟩] (by decide) _).2 ?_, ?_⟩ <;>
    simp [DpOp.base, bits_or, bit_or, bits_field_self, bits_field_above, bits_field_below, bit_field, flag]

/-- An operand form fits bits 11:0. -/
theorem DpOperand.encode_tail (o : DpOperand) : bits 12 20 o.encode = 0#20 := by
  cases o with
  | imm o => exact o.encode_tail
  | immShift o => exact o.encode_tail
  | regShift o => exact o.encode_tail

/-- No opcode lies in the miscellaneous space: a compare or test opcode has S set (R155). -/
theorem DpOp.not_misc (op : DpOp) (sf : Bool) :
    ¬(op.code.extractLsb' 2 2 = 2#2 ∧ (op.testsOnly || sf) = false) := by
  cases op <;> simp [DpOp.code, DpOp.testsOnly]

/-- A compare or test opcode keeps no S bit. -/
theorem dpInstr_testsOnly (op : DpOp) (c : Cond) (sf : Bool) (rn rd : RegNo) (o : DpOperand) :
    dpInstr op c (op.testsOnly || sf) rn rd o = dpInstr op c sf rn rd o := by
  cases op <;> cases o <;> rfl

section

variable {w : Word} {op : DpOp} (h : bits 21 4 w = op.code) (c : Cond)

include h

/-- `DP_IMM` answers the instruction of the opcode. -/
theorem dpImm_of_code :
    dpImm c w = dpInstr op c (bit 20 w) (bits 16 4 w) (bits 12 4 w) (.imm (immOp w)) := by
  unfold dpImm
  rw [h]
  cases op <;> rfl

/-- `DP_IMMSHIFT` answers the instruction of the opcode. -/
theorem dpImmShift_of_code :
    dpImmShift c w = dpInstr op c (bit 20 w) (bits 16 4 w) (bits 12 4 w) (.immShift (shiftImmOp w)) := by
  unfold dpImmShift
  rw [h]
  cases op <;> rfl

/-- `DP_REGSHIFT` answers the instruction of the opcode. -/
theorem dpRegShift_of_code :
    dpRegShift c w = dpInstr op c (bit 20 w) (bits 16 4 w) (bits 12 4 w) (.regShift (shiftRegOp w)) := by
  unfold dpRegShift
  rw [h]
  cases op <;> rfl

end

/-- Every opcode in every form decodes from its encoding. -/
theorem decode_encode_dpInstr (v : Variant) (op : DpOp) (c : Cond) (sf : Bool) (rn rd : RegNo) (o : DpOperand) :
    decode v (encode (dpInstr op c sf rn rd o)) = dpInstr op c sf rn rd o := by
  obtain ⟨hbase, hb25, hb21, hb20⟩ := op.fields_base o.cls
  obtain ⟨hc, h25, h21, h20, hrn, hrd, hlow⟩ := fields_dp (encode_dpInstr op c sf rn rd o).symm hbase o.encode_tail
  generalize encode (dpInstr op c sf rn rd o) = x at *
  rw [hb25] at h25
  rw [hb21] at h21
  rw [hb20, Bool.or_self_left] at h20
  have hmisc : ¬(bits 23 2 x = 2#2 ∧ bit 20 x = false) := by
    rw [bits_eq_extractLsb'_bits 21 4 23 2 (by decide) (by decide), h21, h20]
    exact op.not_misc sf
  cases o with
  | imm o =>
    calc decode v x = dpImm c x := by simp [decode, hc, decodeCond, h25, DpOperand.cls, class001, hmisc]
      _ = _ := by rw [dpImm_of_code h21, h20, hrn, hrd, immOp_of_low hlow, dpInstr_testsOnly]
  | immShift o =>
    have h4 : bit 4 x = false := bit4_of_low_shiftImmOp hlow
    have hlo : bits 4 4 x ≠ 9#4 := bits_ne_of_bit 4 4 4 (by decide) (by decide) (by rw [h4]; decide)
    calc decode v x = dpImmShift c x := by
          simp [decode, hc, decodeCond, h25, DpOperand.cls, class000, hlo, h4, hmisc]
      _ = _ := by rw [dpImmShift_of_code h21, h20, hrn, hrd, shiftImmOp_of_low hlow, dpInstr_testsOnly]
  | regShift o =>
    have h4 : bit 4 x = true := by
      rw [bit_of_low hlow 4 (by decide)]
      simp [DpOperand.encode, ShiftRegOp.encode, bit_or, bit_ofNat]
    have h7 : bit 7 x = false := by
      rw [bit_of_low hlow 7 (by decide)]
      simp [DpOperand.encode, ShiftRegOp.encode, bit_or, bit_field, bit_ofNat]
    have hlo : bits 4 4 x ≠ 9#4 := bits_ne_of_bit 4 4 7 (by decide) (by decide) (by rw [h7]; decide)
    calc decode v x = dpRegShift c x := by
          simp [decode, hc, decodeCond, h25, DpOperand.cls, class000, hlo, h4, h7, hmisc]
      _ = _ := by rw [dpRegShift_of_code h21, h20, hrn, hrd, shiftRegOp_of_low hlow, dpInstr_testsOnly]

/-- The instructions of the group are the opcodes in their forms. -/
theorem eq_dpInstr_of_familyOf {i : Instr} (h : familyOf i = .dataProcessing) :
    ∃ op c sf rn rd o, i = dpInstr op c sf rn rd o := by
  cases i with
  | andImm c sf rn rd o => exact ⟨.and, c, sf, rn, rd, .imm o, rfl⟩
  | andImmShift c sf rn rd o => exact ⟨.and, c, sf, rn, rd, .immShift o, rfl⟩
  | andRegShift c sf rn rd o => exact ⟨.and, c, sf, rn, rd, .regShift o, rfl⟩
  | eorImm c sf rn rd o => exact ⟨.eor, c, sf, rn, rd, .imm o, rfl⟩
  | eorImmShift c sf rn rd o => exact ⟨.eor, c, sf, rn, rd, .immShift o, rfl⟩
  | eorRegShift c sf rn rd o => exact ⟨.eor, c, sf, rn, rd, .regShift o, rfl⟩
  | subImm c sf rn rd o => exact ⟨.sub, c, sf, rn, rd, .imm o, rfl⟩
  | subImmShift c sf rn rd o => exact ⟨.sub, c, sf, rn, rd, .immShift o, rfl⟩
  | subRegShift c sf rn rd o => exact ⟨.sub, c, sf, rn, rd, .regShift o, rfl⟩
  | rsbImm c sf rn rd o => exact ⟨.rsb, c, sf, rn, rd, .imm o, rfl⟩
  | rsbImmShift c sf rn rd o => exact ⟨.rsb, c, sf, rn, rd, .immShift o, rfl⟩
  | rsbRegShift c sf rn rd o => exact ⟨.rsb, c, sf, rn, rd, .regShift o, rfl⟩
  | addImm c sf rn rd o => exact ⟨.add, c, sf, rn, rd, .imm o, rfl⟩
  | addImmShift c sf rn rd o => exact ⟨.add, c, sf, rn, rd, .immShift o, rfl⟩
  | addRegShift c sf rn rd o => exact ⟨.add, c, sf, rn, rd, .regShift o, rfl⟩
  | adcImm c sf rn rd o => exact ⟨.adc, c, sf, rn, rd, .imm o, rfl⟩
  | adcImmShift c sf rn rd o => exact ⟨.adc, c, sf, rn, rd, .immShift o, rfl⟩
  | adcRegShift c sf rn rd o => exact ⟨.adc, c, sf, rn, rd, .regShift o, rfl⟩
  | sbcImm c sf rn rd o => exact ⟨.sbc, c, sf, rn, rd, .imm o, rfl⟩
  | sbcImmShift c sf rn rd o => exact ⟨.sbc, c, sf, rn, rd, .immShift o, rfl⟩
  | sbcRegShift c sf rn rd o => exact ⟨.sbc, c, sf, rn, rd, .regShift o, rfl⟩
  | rscImm c sf rn rd o => exact ⟨.rsc, c, sf, rn, rd, .imm o, rfl⟩
  | rscImmShift c sf rn rd o => exact ⟨.rsc, c, sf, rn, rd, .immShift o, rfl⟩
  | rscRegShift c sf rn rd o => exact ⟨.rsc, c, sf, rn, rd, .regShift o, rfl⟩
  | tstImm c rn rd o => exact ⟨.tst, c, false, rn, rd, .imm o, rfl⟩
  | tstImmShift c rn rd o => exact ⟨.tst, c, false, rn, rd, .immShift o, rfl⟩
  | tstRegShift c rn rd o => exact ⟨.tst, c, false, rn, rd, .regShift o, rfl⟩
  | teqImm c rn rd o => exact ⟨.teq, c, false, rn, rd, .imm o, rfl⟩
  | teqImmShift c rn rd o => exact ⟨.teq, c, false, rn, rd, .immShift o, rfl⟩
  | teqRegShift c rn rd o => exact ⟨.teq, c, false, rn, rd, .regShift o, rfl⟩
  | cmpImm c rn rd o => exact ⟨.cmp, c, false, rn, rd, .imm o, rfl⟩
  | cmpImmShift c rn rd o => exact ⟨.cmp, c, false, rn, rd, .immShift o, rfl⟩
  | cmpRegShift c rn rd o => exact ⟨.cmp, c, false, rn, rd, .regShift o, rfl⟩
  | cmnImm c rn rd o => exact ⟨.cmn, c, false, rn, rd, .imm o, rfl⟩
  | cmnImmShift c rn rd o => exact ⟨.cmn, c, false, rn, rd, .immShift o, rfl⟩
  | cmnRegShift c rn rd o => exact ⟨.cmn, c, false, rn, rd, .regShift o, rfl⟩
  | orrImm c sf rn rd o => exact ⟨.orr, c, sf, rn, rd, .imm o, rfl⟩
  | orrImmShift c sf rn rd o => exact ⟨.orr, c, sf, rn, rd, .immShift o, rfl⟩
  | orrRegShift c sf rn rd o => exact ⟨.orr, c, sf, rn, rd, .regShift o, rfl⟩
  | movImm c sf rn rd o => exact ⟨.mov, c, sf, rn, rd, .imm o, rfl⟩
  | movImmShift c sf rn rd o => exact ⟨.mov, c, sf, rn, rd, .immShift o, rfl⟩
  | movRegShift c sf rn rd o => exact ⟨.mov, c, sf, rn, rd, .regShift o, rfl⟩
  | bicImm c sf rn rd o => exact ⟨.bic, c, sf, rn, rd, .imm o, rfl⟩
  | bicImmShift c sf rn rd o => exact ⟨.bic, c, sf, rn, rd, .immShift o, rfl⟩
  | bicRegShift c sf rn rd o => exact ⟨.bic, c, sf, rn, rd, .regShift o, rfl⟩
  | mvnImm c sf rn rd o => exact ⟨.mvn, c, sf, rn, rd, .imm o, rfl⟩
  | mvnImmShift c sf rn rd o => exact ⟨.mvn, c, sf, rn, rd, .immShift o, rfl⟩
  | mvnRegShift c sf rn rd o => exact ⟨.mvn, c, sf, rn, rd, .regShift o, rfl⟩
  | _ => cases h

/-- Settles O52: the group is the sixteen opcodes in their three forms, each read back field by field. -/
theorem roundTripDataProcessing : Obligations.RoundTripDataProcessing := by
  intro v i hi _
  obtain ⟨op, c, sf, rn, rd, o, rfl⟩ := eq_dpInstr_of_familyOf hi
  exact decode_encode_dpInstr v op c sf rn rd o

end Sys2Proof.Machine
end

section
/-! SUPPORT. Decode of encode for loads, stores, swaps, preloads and block transfers (R162, R165, R166, R173 to R176,
R181): format by format, the fields of the word answer the tests of the entry. -/

namespace Sys2Proof.Machine

/-- Settles O53: format by format, what is read from the word answers the tests of the decoder. -/
theorem roundTripTransfers : Obligations.RoundTripTransfers := by
  intro v i hi hw
  generalize hx : encode i = x
  cases i with
  | ldrImm c u w rn rd off | ldrImmPost c u rn rd off | ldrtImm c u rn rd off | ldrbImm c u w rn rd off
  | ldrbImmPost c u rn rd off | ldrbtImm c u rn rd off | strImm c u w rn rd off | strImmPost c u rn rd off
  | strtImm c u rn rd off | strbImm c u w rn rd off | strbImmPost c u rn rd off | strbtImm c u rn rd off =>
    have h := fields_ls hx (by decide) (bits_field_above (by decide) off)
    simp [decode, decodeCond, class010, h, bits_field_self, bits_ofNat, bit_ofNat]
  | ldrReg c u w rn rd o | ldrRegPost c u rn rd o | ldrtReg c u rn rd o | ldrbReg c u w rn rd o
  | ldrbRegPost c u rn rd o | ldrbtReg c u rn rd o | strReg c u w rn rd o | strRegPost c u rn rd o
  | strtReg c u rn rd o | strbReg c u w rn rd o | strbRegPost c u rn rd o | strbtReg c u rn rd o =>
    obtain ⟨hc, h25, h24, h23, h22, h21, h20, hrn, hrd, hlow⟩ := fields_ls hx (by decide) o.encode_tail
    simp [decode, hc, decodeCond, h25, class011, bit4_of_low_shiftImmOp hlow, h24, h23, h22, h21, h20, hrn, hrd,
      shiftImmOp_of_low hlow, bits_ofNat, bit_ofNat]
  | strhImm c p u w rn rd off | ldrhImm c p u w rn rd off | ldrsbImm c p u w rn rd off | ldrshImm c p u w rn rd off =>
    have h := fields_lsx hx (by decide)
    simp [decode, decodeCond, class000, extraLoadStore, offset8, h, offset8_halves, bits_ofNat, bit_ofNat]
  | strhReg c p u w rn rd rm | ldrhReg c p u w rn rd rm | ldrsbReg c p u w rn rd rm | ldrshReg c p u w rn rd rm =>
    have h := fields_lsx hx (by decide)
    simp [decode, decodeCond, class000, extraLoadStore, h, bits_ofNat, bit_ofNat]
  | ldrdImm c p u w rn rd off | strdImm c p u w rn rd off =>
    obtain rfl : v = .v5 := eq_of_beq hw
    have h := fields_lsx hx (by decide)
    simp [decode, decodeCond, class000, extraLoadStore, offset8, h, offset8_halves, bits_ofNat, bit_ofNat]
  | ldrdReg c p u w rn rd rm | strdReg c p u w rn rd rm =>
    obtain rfl : v = .v5 := eq_of_beq hw
    have h := fields_lsx hx (by decide)
    simp [decode, decodeCond, class000, extraLoadStore, h, bits_ofNat, bit_ofNat]
  | swp c rn rd rm | swpb c rn rd rm =>
    have h := fields_regs hx (by decide)
    simp [decode, decodeCond, class000, multiplySpace, h, bits_ofNat, bit_ofNat]
  | ldm c p u w rn list | ldmUser c p u w rn list | ldmReturn c p u w rn list | stm c p u w rn list
  | stmUser c p u w rn list =>
    subst hx
    simp [encode, encodeLsm, decode, decodeCond, class100, bits_or, bit_or, bits_field_self, bits_field_above,
      bits_field_below, bit_field, flag, bits_ofNat, bit_ofNat]
  | pldImm u rn off =>
    obtain rfl : v = .v5 := eq_of_beq hw
    have h := fields_pld hx (by decide) (bits_field_above (by decide) off)
    simp [decode, decodeUncond, h, bits_field_self, bits_ofNat, bit_ofNat, Cond.ofBits]
  | pldReg u rn o =>
    obtain rfl : v = .v5 := eq_of_beq hw
    obtain ⟨h28, h26, h25cls, h25, h24, h23, h20, hrn, hlow⟩ := fields_pld hx (by decide) o.encode_tail
    simp [decode, decodeUncond, h28, h26, h25cls, h25, h24, h23, h20, hrn, bit4_of_low_shiftImmOp hlow,
      shiftImmOp_of_low hlow, bits_ofNat, bit_ofNat, Cond.ofBits]
  | _ => cases hi

end Sys2Proof.Machine
end

section
/-! SUPPORT. Decode of encode for every other instruction (R161, R163, R166, R167, R169, R172, R177 to R180, R195,
R196): format by format, and the rows that keep their word. -/

namespace Sys2Proof.Machine

/-- The cells `1yx0` of `Misc` on `v5` hold the DSP multiplies (R163). -/
theorem misc_eq_dspMul {w : Word} (h7 : bit 7 w = true) (h4 : bit 4 w = false) (c : Cond) :
    misc .v5 c w = dspMul c w := by
  rw [bit_eq_getLsbD_bits 4 4 7 (by decide) (by decide)] at h7
  rw [bit_eq_getLsbD_bits 4 4 4 (by decide) (by decide)] at h4
  unfold misc
  generalize bits 4 4 w = lo at *
  have hlo : ∀ lo : BitVec 4, lo.getLsbD 3 = true → lo.getLsbD 0 = false →
    lo = 8#4 ∨ lo = 10#4 ∨ lo = 12#4 ∨ lo = 14#4 := by decide
  rcases hlo lo h7 h4 with rfl | rfl | rfl | rfl <;> rfl

/-- The words of class 110 on `v5` that are neither MCRR nor MRRC (R167). -/
theorem class110_eq_ldcStcV5 {w : Word} (h : (bit 24 w || bit 23 w || !bit 22 w || bit 21 w) = true) (c : Cond) :
    class110 .v5 c w = ldcStcV5 c w := by
  have hkey : ∀ k : BitVec 5, k = 4#5 ∨ k = 5#5 →
    (k.getLsbD 4 || k.getLsbD 3 || !k.getLsbD 2 || k.getLsbD 1) = false := by decide
  rw [bit_eq_getLsbD_bits 20 5 24 (by decide) (by decide), bit_eq_getLsbD_bits 20 5 23 (by decide) (by decide),
    bit_eq_getLsbD_bits 20 5 22 (by decide) (by decide), bit_eq_getLsbD_bits 20 5 21 (by decide) (by decide)] at h
  have hne : ¬(bits 20 5 w = 4#5 ∨ bits 20 5 w = 5#5) := fun hk => Bool.false_ne_true ((hkey _ hk).symm.trans h)
  simp [class110, not_or.1 hne]

/-! ### The rows that keep their word (R195, R456, R602, R603) -/

/-- A word of the conditional space in a row, taken apart. -/
theorem cond_of_kept {m u w : Word} (h : (conditional w && inRow m u w) = true) :
    (∃ c, Cond.ofBits (bits 28 4 w) = some c) ∧ inRow m u w = true := by
  rw [Bool.and_eq_true, conditional_eq_isSome, Option.isSome_iff_exists] at h
  exact h

section

variable {v : Variant} {w : Word}

/-- The UNDEFINED words of the miscellaneous space (R163, R195). -/
theorem decode_undefMisc (hw : (Instr.undefMisc w).wellFormed v = true) : decode v w = .undefMisc w := by
  obtain ⟨hcond, ⟨h25, hspace⟩, h74, hcell⟩ := (isUndefMisc_iff v w).1 hw
  obtain ⟨c, hc⟩ := Option.isSome_iff_exists.1 ((conditional_eq_isSome w).symm.trans hcond)
  have hlo : bits 4 4 w ≠ 9#4 := fun h => by
    rw [bit_eq_getLsbD_bits 4 4 7 (by decide) (by decide), bit_eq_getLsbD_bits 4 4 4 (by decide) (by decide), h] at h74
    exact absurd h74 (by decide)
  simp [decode, hc, decodeCond, h25, class000, hlo, h74, hspace, misc_of_undefCell hcell]

/-- The NV words of `v4` (R602). -/
theorem decode_nvV4 (hw : (Instr.nvV4 w).wellFormed v = true) : decode v w = .nvV4 w := by
  obtain ⟨hv, hcond⟩ := Bool.and_eq_true_iff.1 hw
  obtain rfl : v = .v4 := eq_of_beq hv
  rw [conditional_eq_isSome] at hcond
  simp_all [decode]

/-- The words of the unconditional space with no instruction (R603). -/
theorem decode_unpredUncond (hw : (Instr.unpredUncond w).wellFormed v = true) : decode v w = .unpredUncond w := by
  obtain ⟨hv, huncond⟩ := Bool.and_eq_true_iff.1 hw
  obtain rfl : v = .v5 := eq_of_beq hv
  obtain ⟨h28, hblx, hpld, hldc, hcdp⟩ := (isUnpredUncond_iff w).1 huncond
  rw [decode, h28]
  change decodeUncond w = _
  unfold decodeUncond
  split_ifs <;> simp_all

end

/-- Settles O54: format by format, what is read from the word answers the decoder's tests; a kept word is in its row. -/
theorem roundTripOthers : Obligations.RoundTripOthers := by
  intro v i hi hw
  generalize hx : encode i = x
  cases i with
  | mul c sf r16 r8 r0 | mla c sf r16 r12 r8 r0 | umull c sf r16 r12 r8 r0 | umlal c sf r16 r12 r8 r0
  | smull c sf r16 r12 r8 r0 | smlal c sf r16 r12 r8 r0 =>
    have h := fields_regs hx (by decide)
    simp [decode, decodeCond, class000, multiplySpace, h, bits_ofNat, bit_ofNat]
  | qadd c rn rd rm | qsub c rn rd rm | qdadd c rn rd rm | qdsub c rn rd rm =>
    obtain rfl : v = .v5 := eq_of_beq hw
    have h := fields_regs hx (by decide)
    simp [decode, decodeCond, class000, misc, qArith, h, bits_ofNat, bit_ofNat]
  | smlaxy c r16 r12 r8 yh xh r0 | smlawy c r16 r12 r8 yh r0 | smulwy c r16 r8 yh r0
  | smlalxy c r16 r12 r8 yh xh r0 | smulxy c r16 r8 yh xh r0 =>
    obtain rfl : v = .v5 := eq_of_beq hw
    obtain ⟨hc, h25, h23, h22, h21, h20, h16, h12, h8, h7, h6, h5, h4, h0⟩ := fields_dsp hx (by decide)
    have hlo : bits 4 4 x ≠ 9#4 := bits_ne_of_bit 4 4 4 (by decide) (by decide) (by rw [h4]; decide)
    simp [decode, hc, decodeCond, h25, class000, hlo, h23, h20, misc_eq_dspMul, h7, h4, dspMul, h22, h21, h16, h12, h8,
      h6, h5, h0, show Half.bottom.bit = false from rfl, show Half.top.bit = true from rfl, bits_ofNat, bit_ofNat]
  | mrs c r rd | msrReg c r mask rm | bx c rm | b c imm | bl c imm | swi c imm | cdp c op1 crn crd cp op2 crm
  | mcr c op1 crn rd cp op2 crm | mrc c op1 crn rd cp op2 crm =>
    subst hx
    simp [encode, encodeCp, decode, decodeCond, class000, misc, class101, class111, bits_or, bit_or, bits_field_self,
      bits_field_above, bits_field_below, bit_field, flag, bits_ofNat, bit_ofNat]
  | msrImm c r mask o =>
    have ho := o.encode_tail
    subst hx
    simp [encode, decode, decodeCond, class001, immOp_or_encode, bits_of_tail ho, bit_of_tail ho, bits_or, bit_or,
      bits_field_self, bits_field_above, bits_field_below, bit_field, flag, bits_ofNat, bit_ofNat]
  | clz c rd rm | blxReg c rm | bkpt c immHi immLo | mcrr c rn rd cp op crm | mrrc c rn rd cp op crm =>
    obtain rfl : v = .v5 := eq_of_beq hw
    subst hx
    simp [encode, decode, decodeCond, class000, misc, class110, bits_or, bit_or, bits_field_self, bits_field_above,
      bits_field_below, bit_field, bits_ofNat, bit_ofNat]
  | blxImm h imm | cdp2 op1 crn crd cp op2 crm | mcr2 op1 crn rd cp op2 crm | mrc2 op1 crn rd cp op2 crm =>
    obtain rfl : v = .v5 := eq_of_beq hw
    subst hx
    simp [encode, encodeCp, decode, decodeUncond, bits_or, bit_or, bits_field_self, bits_field_above, bits_field_below,
      bit_field, flag, bits_ofNat, bit_ofNat, Cond.ofBits]
  | stcV4 c p u n w rn crd cp off | ldcV4 c p u n w rn crd cp off =>
    obtain rfl : v = .v4 := eq_of_beq hw
    have h := fields_ldc hx (inRow_or_cond (by decide) (by decide))
    simp [decode, decodeCond, class110, h, bits_or, bit_or, bits_field_self, bits_field_below, bit_field, bits_ofNat,
      bit_ofNat]
  | stcPre c u n w rn crd cp off | stcPostUp c n w rn crd cp off | stcPostDown c w rn crd cp off
  | stcPostDownLong c rn crd cp off | ldcPre c u n w rn crd cp off | ldcPostUp c n w rn crd cp off
  | ldcPostDown c w rn crd cp off | ldcPostDownLong c rn crd cp off =>
    obtain rfl : v = .v5 := eq_of_beq hw
    have h := fields_ldc hx (inRow_or_cond (by decide) (by decide))
    simp [decode, decodeCond, class110_eq_ldcStcV5, ldcStcV5, h, bits_or, bit_or, bits_field_self,
      bits_field_below, bit_field, bits_ofNat, bit_ofNat]
  | stc2 p u n w rn crd cp off | ldc2 p u n w rn crd cp off =>
    obtain rfl : v = .v5 := eq_of_beq hw
    have h := fields_ldc hx (by decide)
    simp [decode, decodeUncond, h, bits_ofNat, bit_ofNat, Cond.ofBits]
  | unpredLsx10 w | unpredLsx11 w =>
    obtain ⟨hv, hkept⟩ := Bool.and_eq_true_iff.1 ((Bool.and_assoc ..).symm.trans hw)
    obtain rfl : v = .v4 := eq_of_beq hv
    obtain ⟨⟨c, hc⟩, hrow⟩ := cond_of_kept hkept
    simp only [inRow_unpredLsx10, inRow_unpredLsx11] at hrow
    obtain ⟨h25, h20, h7, h6, h5, h4⟩ := hrow
    have hlo : bits 4 4 w ≠ 9#4 := bits_ne_of_bit 4 4 6 (by decide) (by decide) (by rw [h6]; decide)
    simp [← hx, encode, decode, hc, decodeCond, h25, class000, hlo, h7, h4, extraLoadStore, h6, h5, h20]
  | undefMul w | undefSwap21 w | undefSwap20 w | undefSwap23 w =>
    obtain ⟨⟨c, hc⟩, hrow⟩ := cond_of_kept hw
    simp only [inRow_undefMul, inRow_undefSwap21, inRow_undefSwap20, inRow_undefSwap23] at hrow
    simp [← hx, encode, decode, hc, decodeCond, class000, multiplySpace, hrow]
  | undefMsrImm w =>
    obtain ⟨⟨c, hc⟩, hrow⟩ := cond_of_kept hw
    simp [← hx, encode, decode, hc, decodeCond, class001, (inRow_undefMsrImm w).1 hrow]
  | undefMedia w =>
    obtain ⟨⟨c, hc⟩, hrow⟩ := cond_of_kept hw
    simp [← hx, encode, decode, hc, decodeCond, class011, (inRow_undefMedia w).1 hrow]
  | undefMisc w => subst hx; exact decode_undefMisc hw
  | nvV4 w => subst hx; exact decode_nvV4 hw
  | unpredUncond w => subst hx; exact decode_unpredUncond hw
  | _ => cases hi

end Sys2Proof.Machine
end

section
/-! SUPPORT. The words that the spec writes out. -/

namespace Sys2Proof.Machine

/-- Settles O51: each word is decoded by evaluation. -/
theorem decodeSpecWords : Obligations.DecodeSpecWords := by
  unfold Obligations.DecodeSpecWords
  decide

end Sys2Proof.Machine
end

section
/-! SUPPORT. The execution cycle (R230 to R251): the condition table, the end of a step, the step from the fetched word on,
that a step stays in its CPU (R236), and the step of a word whose condition fails (R234). -/

namespace Sys2Proof

/-! ### The condition field (R151) -/

/-- The condition field is the word without its low 28 bits. -/
theorem toNat_condField (w : Word) : (bits 28 4 w).toNat = (w >>> 28).toNat := by
  have hlt := w.isLt
  simp only [bits, BitVec.extractLsb'_toNat, BitVec.toNat_ushiftRight, Nat.shiftRight_eq_div_pow]
  omega

/-- A condition field that names a condition is its number. -/
theorem Cond.eq_bits_of_ofBits {b : BitVec 4} {c : Cond} (h : Cond.ofBits b = some c) : b = c.bits := by
  revert b
  cases c <;> decide

/-- The condition field that names no condition is 1111 (R151). -/
theorem Cond.eq_of_ofBits_none {b : BitVec 4} (h : Cond.ofBits b = none) : b = 15#4 := by
  revert b
  decide

end Sys2Proof

namespace Sys2Proof.Machine

/-! ### Conditions (R232) -/

/-- Settles O38: row by row, by the condition that the field names; the unconditional space always executes. -/
theorem conditionTable : Obligations.ConditionTable := by
  intro w psr
  simp only [← toNat_condField, conditionPassed]
  cases h : Cond.ofBits (bits 28 4 w) with
  | some c =>
    rw [Cond.eq_bits_of_ofBits h]
    cases c <;> rfl
  | none => rw [Cond.eq_of_ofBits_none h]; rfl

/-! ### The end of a step (R230, R236, R240) -/

/-- The end of a step for the pipeline: the target of `pc <-` becomes PC, without one PCNext does (R45, R46). -/
theorem Cpu.advance_eq (c : Cpu) : c.advance =
    let a := c.pendingPC.getD c.pcNext
    { c with
      pc := a, pcNext := a + 4#32, r := c.r.set 15 (a + 8#32), pendingPC := none
      started := c.pendingPC.isSome || c.started } := by
  unfold Cpu.advance
  split
  · next a ha => simp [Cpu.setPC_eq, ha]
  · next hnone => simp [Cpu.prefetch, hnone]

/-- The end of a step of a CPU that has halted: the tick is charged, the pipeline stays (R236). -/
theorem State.retire_halted {s : State} (h : s.cpu.halted ≠ none) (cost : Nat) :
    s.retire cost = s.setCpu { s.cpu with tick := s.cpu.tick + cost } := by
  simp [State.retire, Option.isSome_iff_ne_none, h]

/-- Settles O39: by whether the CPU has halted; the cost is its definition. -/
theorem stepEnds : Obligations.StepEnds := by
  intro s cost word
  refine ⟨fun h => State.retire_halted h cost, fun h => ?_, rfl, rfl⟩
  rw [State.retire_running h, Cpu.advance_eq]

/-! ### The step from the fetched word on (R230) -/

section

variable {s s1 : State} {id : CpuId} {word : Word}

/-- A step that takes no interrupt runs the word it fetches (R230). -/
theorem step_of_fetch (hs : s.session = none) (hturn : s.turn = some id)
    (hi : (s.select id).clearPending.interruptDue = none)
    (hf : (s.select id).clearPending.fetch = .done word s1) : step s = s1.runFetched word := by
  simp only [step_of_turn hs hturn, State.cpuStep, hi, hf]

/-- A word whose condition passes is executed (R230). -/
theorem State.runWord_passed (h : conditionPassed word s.cpu.cpsr = true) :
    s.runWord word = exec (decode s.variant word) s := if_pos h

/-- A word whose condition fails does nothing, whatever it encodes (R234). -/
theorem State.runWord_failed (h : conditionPassed word s.cpu.cpsr = false) : s.runWord word = .next s :=
  if_neg (by rw [h]; decide)

end

/-- Settles O36: the fetched word decodes to the instruction and its condition passes. -/
theorem stepRunsDecodedInstruction : Obligations.StepRunsDecodedInstruction := by
  intro s s1 id word i hs hturn hi hf hdecode _ hcond
  rw [step_of_fetch hs hturn hi hf, State.runFetched, State.runWord_passed hcond, hdecode]

/-! ### A step stays in its CPU (R236, R620) -/

section

variable {s t : State}

/-- A register write keeps the block round the stepping CPU. -/
theorem KeepsBlock.setReg (i : RegNo) (v : Word) (s : State) : KeepsBlock s (s.setReg i v) := by
  obtain ⟨-, hblock, -⟩ := Keeps.setReg i v s
  exact hblock

/-- The end of a step keeps the block round the stepping CPU. -/
theorem KeepsBlock.retire (cost : Nat) (s : State) : KeepsBlock s (s.retire cost) := .setCpu _ s

/-- Every move keeps the block round the stepping CPU. -/
theorem State.Move.keepsBlock (m : s.Move t) : KeepsBlock s t := by
  cases m with
  | setReg i v => exact .setReg i v s
  | setUserReg i v =>
    unfold State.setUserReg
    split
    · split
      · exact .setReg i v s
      · exact .setCpu _ s
    · exact .refl s
  | stickQ q =>
    unfold State.stickQ
    split
    · exact .setCpu _ s
    · exact .refl s
  | draw n => exact KeepsBlock.refl s
  | busRead hr => rw [hr.keeps]; exact KeepsBlock.refl s
  | busWrite hw => rw [hw.keeps]; exact KeepsBlock.refl s
  | putCpsr =>
    unfold State.putCpsr
    split <;> exact .setCpu _ s
  | setNZCV | setPendingPC | putSpsr | enterException => exact .setCpu _ s

/-- Every run of moves keeps the block round the stepping CPU. -/
theorem State.Moves.keepsBlock (m : s.Moves t) : KeepsBlock s t := by
  induction m with
  | refl => exact .refl s
  | tail _ hmove ih => exact ih.trans hmove.keepsBlock

/-- An instruction answers a next state and keeps the block round its CPU. -/
theorem State.Ends.keepsBlock {r : Result} (e : s.Ends r) : ∃ t, r = .next t ∧ KeepsBlock s t := by
  cases e with
  | done hm => exact ⟨_, rfl, hm.keepsBlock⟩
  | raised hm why => exact ⟨_, rfl, hm.keepsBlock.trans (.setCpu _ _)⟩

end

/-- A step of a CPU answers a next state and keeps the block round that CPU. -/
theorem State.cpuStep_keepsBlock (s : State) : ∃ t, s.cpuStep = .next t ∧ KeepsBlock s t := by
  obtain ⟨cost, r, hends, hcpu⟩ := s.cpuStep_ends
  obtain ⟨t, rfl, hblock⟩ := hends.keepsBlock
  exact ⟨t.retire cost, hcpu, ((KeepsBlock.setCpu _ s).trans hblock).trans (.retire cost t)⟩

/-- Settles O60: no step once the session has ended; else the step is that of the CPU whose turn it is, which keeps the
block round it, or a move of the Clock, which changes of the CPUs only the ticks. -/
theorem stepsAreIndivisible : Obligations.StepsAreIndivisible := by
  refine fun s => ⟨fun why hended => ⟨?_, fun id t fuel => ?_⟩, fun hs => ?_⟩
  · simp only [step, State.blockStep, hended]
  · exact ⟨State.inSession_ended hended _, State.inSession_ended hended _, State.inSession_ended hended _⟩
  cases hturn : s.turn with
  | some id =>
    obtain ⟨t, hstep, hcur, hclock, hparams, hsession, hothers⟩ := (s.select id).cpuStep_keepsBlock
    have hkept (k : CpuId) (hk : k ≠ id) : t.cpuOf k = s.cpuOf k := (hothers k hk).trans (State.cpuOf_select id k s)
    refine ⟨t, (step_of_turn hs hturn).trans hstep, hparams, hsession.trans hs, fun k hidle => ?_, hclock, hcur, hkept⟩
    obtain ⟨hstarted, hrunning⟩ := State.alive_of_turn hturn
    have hk : k ≠ id := by
      rintro rfl
      simp [hstarted, hrunning] at hidle
    rw [hkept k hk]
  | none =>
    obtain ⟨hcpus, hmem, hevents, hparams, hsession⟩ := OnlyTicks.clockStep s
    exact ⟨_, step_of_no_turn hs hturn, hparams, hsession.trans hs, fun id _ => hcpus id, hmem, hevents, hcpus⟩

/-! ### A word whose condition fails (R233, R234) -/

section

variable {s s1 : State} {word : Word}

/-- An answered fetch at the start of a step leaves of the stepping CPU all but the pending target, the block round it and
every byte of memory (R120, R230). -/
theorem State.fetch_clearPending (h : s.clearPending.fetch = .done word s1) :
    s1.cpu = { s.cpu with pendingPC := none } ∧ KeepsBlock s s1 ∧ s1.mem = s.mem := by
  have hread := State.busRead32_done.1 h
  refine ⟨?_, (KeepsBlock.setCpu _ s).trans (State.Move.busRead hread).keepsBlock, ?_⟩
  · rw [hread.cpu, State.clearPending, State.cpu_setCpu]
  · rw [hread.keeps]
    exact State.setCpu_mem _ s

end

/-- Settles O37: the step is the fetch, then the end of the step of a CPU without a pending target. -/
theorem failedConditionSkips : Obligations.FailedConditionSkips := by
  intro s s1 id word hs hturn hi hf hcond hrun
  obtain ⟨hcpu, hblock, hmem⟩ := State.fetch_clearPending hf
  rw [State.cpu_select] at hcpu
  have hstep : step s = .next (s1.retire (s1.stepCost word)) := by
    rw [step_of_fetch hs hturn hi hf, State.runFetched, State.runWord_failed hcond, retireResult]
  obtain ⟨hcur, hclock, hparams, hsession, hothers⟩ := hblock.trans (KeepsBlock.retire (s1.stepCost word) s1)
  refine ⟨_, hstep, hcur, ?_, (State.setCpu_mem _ s1).trans hmem, ?_, hclock, hparams, hsession.trans hs, fun k hk =>
    (hothers k hk).trans (State.cpuOf_select id k s)⟩
  · rw [State.retire_running (by rw [hcpu]; exact hrun), Cpu.advance_eq, State.cpu_setCpu, hcpu]
    rfl
  · exact ⟨State.setCpu_mem _ s1, State.setCpu_events _ s1, State.setCpu_draws _ s1⟩

end Sys2Proof.Machine
end

section
/-! SUPPORT. The shifter operand (R271 to R276): every row of the shift tables as one shift of the word and one of its
bits, then what the shifts do to the number and to the bits of the word. -/

namespace Sys2Proof.Machine

/-! ### The shifts of a word -/

/-- A left shift multiplies, modulo 2^32 (R272). -/
theorem toNat_shiftLeft_eq_mul (m : Word) (n : Nat) : (m <<< n).toNat = m.toNat * 2 ^ n % 2 ^ 32 := by
  rw [BitVec.toNat_shiftLeft, Nat.shiftLeft_eq]

/-- A logical right shift divides (R273). -/
theorem toNat_ushiftRight_eq_div (m : Word) (n : Nat) : (m >>> n).toNat = m.toNat / 2 ^ n := by
  rw [BitVec.toNat_ushiftRight, Nat.shiftRight_eq_div_pow]

/-- An arithmetic right shift divides the signed value towards minus infinity (R274). -/
theorem toInt_sshiftRight_eq_div (m : Word) (n : Nat) : (m.sshiftRight n).toInt = m.toInt / 2 ^ n := by
  rw [BitVec.toInt_sshiftRight, Int.shiftRight_eq_div_pow, Int.natCast_pow]
  rfl

/-- A rotation moves each bit (R275). -/
theorem getLsbD_rotateRight_mod (m : Word) (n : Nat) {i : Nat} (hi : i < 32) :
    (m.rotateRight n).getLsbD i = m.getLsbD ((i + n) % 32) := by
  rw [BitVec.getLsbD_rotateRight]
  by_cases h : i < 32 - n % 32
  · rw [decide_eq_true h, cond_true, show n % 32 + i = (i + n) % 32 by omega]
  · rw [decide_eq_false h, cond_false, decide_eq_true hi, Bool.true_and,
      show i - (32 - n % 32) = (i + n) % 32 by omega]

/-- The sign alone is left of an arithmetic shift by 32 or more (R274, R276). -/
theorem sshiftRight_eq_signFill (m : Word) {n : Nat} (h : 32 ≤ n) : m.sshiftRight n = signFill m := by
  have hones : 0xFFFFFFFF#32 = BitVec.allOnes 32 := rfl
  apply BitVec.eq_of_getLsbD_eq
  intro i hi
  rw [BitVec.getLsbD_sshiftRight, if_neg (by omega), BitVec.msb_eq_getLsbD_last, signFill, bit, hones]
  cases m.getLsbD 31 with
  | false => simp
  | true => rw [if_pos rfl, BitVec.getLsbD_allOnes]; simp [hi]

/-- RRX halves the word and puts the carry in front (R275). -/
theorem toNat_rrx (m : Word) (c : Bool) :
    (m >>> 1 ||| flag 31 c).toNat = m.toNat / 2 + if c then 2 ^ 31 else 0 := by
  have hflag : (flag 31 c).toNat = if c then 2 ^ 31 else 0 := by cases c <;> rfl
  have hdisjoint : m >>> 1 &&& flag 31 c = 0#32 := by
    apply BitVec.eq_of_getLsbD_eq
    intro i hi
    cases c <;> interval_cases i <;> simp [flag, field]
  rw [← BitVec.add_eq_or_of_and_eq_zero _ _ hdisjoint, BitVec.toNat_add_of_and_eq_zero hdisjoint,
    toNat_ushiftRight_eq_div, hflag, pow_one]

/-! ### The rows of the shift tables -/

section

variable (m : Word) (n : Nat) (c : Bool)

/-- LSL by an immediate (R272). -/
theorem shiftByImm_lsl : shiftByImm .lsl m n c = ⟨m <<< n, if n = 0 then c else m.getLsbD (32 - n)⟩ := by
  by_cases hn : n = 0
  · simp [shiftByImm, hn]
  · simp only [shiftByImm, if_neg hn, bit]

/-- LSR by an immediate; the encoded amount 0 is 32 (R273). -/
theorem shiftByImm_lsr : shiftByImm .lsr m n c =
    ⟨m >>> (if n = 0 then 32 else n), m.getLsbD ((if n = 0 then 32 else n) - 1)⟩ := by
  by_cases hn : n = 0
  · simp only [shiftByImm, if_pos hn, BitVec.ushiftRight_eq_zero (Nat.le_refl 32), bit]
  · simp only [shiftByImm, if_neg hn, bit]

/-- ASR by an immediate; the encoded amount 0 is 32 (R274). -/
theorem shiftByImm_asr : shiftByImm .asr m n c =
    ⟨m.sshiftRight (if n = 0 then 32 else n), m.getLsbD ((if n = 0 then 32 else n) - 1)⟩ := by
  by_cases hn : n = 0
  · simp only [shiftByImm, if_pos hn, sshiftRight_eq_signFill m (Nat.le_refl 32), bit]
  · simp only [shiftByImm, if_neg hn, bit]

/-- The amount 0 of a register keeps the value and the carry (R276). -/
theorem shiftByReg_zero (sh : Shift) : shiftByReg sh m 0 c = ⟨m, c⟩ := if_pos rfl

/-- LSL by a register, by an amount other than 0 (R276). -/
theorem shiftByReg_lsl (hn : n ≠ 0) :
    shiftByReg .lsl m n c = ⟨m <<< n, if n ≤ 32 then m.getLsbD (32 - n) else false⟩ := by
  simp only [shiftByReg, if_neg hn]
  rcases lt_trichotomy n 32 with hlt | rfl | hgt
  · simp only [if_pos hlt, if_pos hlt.le, bit]
  · rw [BitVec.shiftLeft_eq_zero (Nat.le_refl 32)]; rfl
  · simp only [BitVec.shiftLeft_eq_zero hgt.le, if_neg hgt.not_gt, if_neg hgt.ne', if_neg hgt.not_ge]

/-- LSR by a register, by an amount other than 0 (R276). -/
theorem shiftByReg_lsr (hn : n ≠ 0) : shiftByReg .lsr m n c = ⟨m >>> n, m.getLsbD (n - 1)⟩ := by
  simp only [shiftByReg, if_neg hn]
  rcases lt_trichotomy n 32 with hlt | rfl | hgt
  · simp only [if_pos hlt, bit]
  · rw [BitVec.ushiftRight_eq_zero (Nat.le_refl 32)]; rfl
  · simp only [BitVec.ushiftRight_eq_zero hgt.le, BitVec.getLsbD_of_ge m (n - 1) (by omega), if_neg hgt.not_gt,
      if_neg hgt.ne']

/-- ASR by a register, by an amount other than 0 (R276). -/
theorem shiftByReg_asr (hn : n ≠ 0) :
    shiftByReg .asr m n c = ⟨m.sshiftRight n, m.getLsbD (min n 32 - 1)⟩ := by
  simp only [shiftByReg, if_neg hn]
  rcases lt_or_ge n 32 with hlt | hge
  · simp only [if_pos hlt, min_eq_left hlt.le, bit]
  · rw [if_neg hge.not_gt, sshiftRight_eq_signFill m hge, min_eq_right hge]; rfl

/-- ROR by a register, by an amount other than 0 (R276). -/
theorem shiftByReg_ror (hn : n ≠ 0) :
    shiftByReg .ror m n c = ⟨m.rotateRight n, m.getLsbD ((n - 1) % 32)⟩ := by
  simp only [shiftByReg, if_neg hn]
  rw [← BitVec.rotateRight_mod_eq_rotateRight (r := n)]
  by_cases h32 : n % 32 = 0
  · have hzero : m.rotateRight 0 = m := by simp [BitVec.rotateRight, BitVec.rotateRightAux]
    rw [if_pos h32, h32, hzero, show (n - 1) % 32 = 31 by omega, bit]
  · rw [if_neg h32, show (n - 1) % 32 = n % 32 - 1 by omega, bit]

end

/-! ### The obligations -/

/-- Settles O6: the rotated byte bit by bit, then each row of the immediate shifts by what its shift does. -/
theorem shifterByImmediate : Obligations.ShifterByImmediate := by
  intro im o s c y x m n
  have hx : x = shiftByImm o.shift m n c := rfl
  refine ⟨fun i hi => ?_, rfl, ?_⟩
  · change ((im.imm8.setWidth 32).rotateRight _).getLsbD i = _
    rw [getLsbD_rotateRight_mod _ _ hi, BitVec.getLsbD_setWidth, decide_eq_true (Nat.mod_lt _ (by decide)),
      Bool.true_and]
  · rw [hx]
    cases o.shift with
    | lsl => rw [shiftByImm_lsl]; exact ⟨toNat_shiftLeft_eq_mul m n, rfl⟩
    | lsr => rw [shiftByImm_lsr]; exact ⟨toNat_ushiftRight_eq_div m _, rfl⟩
    | asr => rw [shiftByImm_asr]; exact ⟨toInt_sshiftRight_eq_div m _, rfl⟩
    | ror =>
      dsimp only [shiftByImm]
      split
      · exact ⟨toNat_rrx m c, rfl⟩
      · exact ⟨fun i hi => getLsbD_rotateRight_mod m n hi, rfl⟩

/-- Settles O7: the amount 0 apart, each row of the register shifts by what its shift does. -/
theorem shifterByRegister : Obligations.ShifterByRegister := by
  intro o s x m n
  have hx : x = shiftByReg o.shift m n (flagC s.cpu.cpsr) := rfl
  rw [hx]
  split
  · next hn =>
    rw [hn, shiftByReg_zero]
    exact ⟨rfl, rfl⟩
  · next hn =>
    cases o.shift with
    | lsl => rw [shiftByReg_lsl m n _ hn]; exact ⟨toNat_shiftLeft_eq_mul m n, rfl⟩
    | lsr => rw [shiftByReg_lsr m n _ hn]; exact ⟨toNat_ushiftRight_eq_div m n, rfl⟩
    | asr => rw [shiftByReg_asr m n _ hn]; exact ⟨toInt_sshiftRight_eq_div m n, rfl⟩
    | ror => rw [shiftByReg_ror m n _ hn]; exact ⟨fun i hi => getLsbD_rotateRight_mod m n hi, rfl⟩

end Sys2Proof.Machine
end

section
/-! SUPPORT. Data processing by opcode and operand form: each of the forty-eight instructions is the restriction of its
form, then its opcode on Rn and the shifter; every opcode that writes Rd ends in `DPWriteResult` (R305). -/

namespace Sys2Proof.Machine

open Sys2Proof.Config

/-- An opcode on the value of Rn and the shifter (R310 to R325). -/
def DpOp.run (op : DpOp) (sf : Bool) (rd : RegNo) (a : Word) (b : Shifted) (s : State) : Result :=
  match op with
  | .and => opAnd sf rd a b s
  | .eor => opEor sf rd a b s
  | .sub => opSub sf rd a b s
  | .rsb => opRsb sf rd a b s
  | .add => opAdd sf rd a b s
  | .adc => opAdc sf rd a b s
  | .sbc => opSbc sf rd a b s
  | .rsc => opRsc sf rd a b s
  | .tst => opTst a b s
  | .teq => opTeq a b s
  | .cmp => opCmp a b s
  | .cmn => opCmn a b s
  | .orr => opOrr sf rd a b s
  | .mov => opMov sf rd b s
  | .bic => opBic sf rd a b s
  | .mvn => opMvn sf rd b s

/-- The register fields that an opcode uses in its register-shift form (R276, log 11). -/
def DpOp.regShiftUsed (op : DpOp) (rn rd : RegNo) (o : ShiftRegOp) : List RegNo :=
  (if op.testsOnly then [] else [rd]) ++ (if op.readsRn then [rn] else []) ++ [o.rm, o.rs]

/-- The restrictions of an operand form (R276). -/
def DpOperand.checks (o : DpOperand) (op : DpOp) (rn rd : RegNo) : List (Bool × UnpredictableReason) :=
  match o with
  | .regShift x => regShiftChecks (op.regShiftUsed rn rd x)
  | _ => []

/-- The shifter of the register-shift form, its amount in its two spellings (R276). -/
theorem DpOperand.shifted_regShift (o : ShiftRegOp) (s : State) :
    (DpOperand.regShift o).shifted s = s.shiftRegOperand o := by
  have hamount : (bits 0 8 (s.reg o.rs)).toNat = (s.reg o.rs).toNat % 256 := by simp [bits]
  rw [State.shiftRegOperand, hamount]
  rfl

/-- A data-processing instruction is the restriction of its form, then its opcode. -/
theorem exec_dpInstr (op : DpOp) (c : Cond) (sf : Bool) (rn rd : RegNo) (o : DpOperand) (s : State) :
    exec (dpInstr op c sf rn rd o) s =
      s.guarded (o.checks op rn rd) (op.run sf rd (s.reg rn) (o.shifted s) s) := by
  cases o with
  | imm o => cases op <;> rfl
  | immShift o => cases op <;> rfl
  | regShift o =>
    rw [DpOperand.shifted_regShift]
    cases op <;> rfl

/-- A register-shift form is legal exactly when no register field it uses is 15 (R276). -/
theorem dpLegal_regShift (op : DpOp) (rn rd : RegNo) (o : ShiftRegOp) :
    dpLegal op rn rd (.regShift o) = !(op.regShiftUsed rn rd o).contains 15#4 := by
  have hused (r : RegNo) : r ∈ op.regShiftUsed rn rd o ↔
      op.testsOnly = false ∧ r = rd ∨ op.readsRn = true ∧ r = rn ∨ r = o.rm ∨ r = o.rs := by
    simp [DpOp.regShiftUsed]
  rw [Bool.eq_iff_iff, Bool.not_eq_true', ← Bool.not_eq_true, List.contains_iff_mem, hused]
  simp only [dpLegal, Bool.and_eq_true, Bool.or_eq_true, bne_iff_ne, Bool.not_eq_true']
  grind

/-- The restriction of a form that is broken is RegShiftPC; none is exactly when the form is legal (R276). -/
theorem DpOperand.firstApplying_checks (o : DpOperand) (op : DpOp) (rn rd : RegNo) :
    firstApplying (o.checks op rn rd) = if dpLegal op rn rd o then none else some .regShiftPC := by
  cases o with
  | imm o => rfl
  | immShift o => rfl
  | regShift o =>
    rw [dpLegal_regShift]
    dsimp only [DpOperand.checks, regShiftChecks, firstApplying]
    cases (op.regShiftUsed rn rd o).contains 15#4 <;> rfl

/-- A legal data-processing instruction is its opcode. -/
theorem exec_dpInstr_legal {op : DpOp} {rn rd : RegNo} {o : DpOperand} (h : dpLegal op rn rd o = true) (c : Cond)
    (sf : Bool) (s : State) :
    exec (dpInstr op c sf rn rd o) s = op.run sf rd (s.reg rn) (o.shifted s) s := by
  rw [exec_dpInstr, State.guarded_pass (by rw [o.firstApplying_checks, if_pos h])]

/-- A logical opcode that writes Rd gives its result, the shifter carry and the old V to `DPWriteResult` (R304). -/
theorem DpOp.run_logical {op : DpOp} (hl : op.logical = true) (ht : op.testsOnly = false) (sf : Bool) (rd : RegNo)
    (a : Word) (b : Shifted) (s : State) : op.run sf rd a b s =
      s.dpWrite sf rd (op.value a b.value (flagC s.cpu.cpsr)) b.carry (flagV s.cpu.cpsr) := by
  cases op with
  | and | eor | orr | mov | bic | mvn => rfl
  | tst | teq | cmp | cmn => cases ht
  | sub | rsb | add | adc | sbc | rsc => cases hl

/-- Every opcode that writes Rd gives its result to `DPWriteResult` (R302, R305). -/
theorem DpOp.run_writes {op : DpOp} (ht : op.testsOnly = false) (sf : Bool) (rd : RegNo) (a : Word) (b : Shifted)
    (s : State) :
    ∃ c v, op.run sf rd a b s = s.dpWrite sf rd (op.value a b.value (flagC s.cpu.cpsr)) c v := by
  have harith {x : AddResult} (hx : x.result = op.value a b.value (flagC s.cpu.cpsr))
      (hrun : op.run sf rd a b s = s.dpArith sf rd x) :
      ∃ c v, op.run sf rd a b s = s.dpWrite sf rd (op.value a b.value (flagC s.cpu.cpsr)) c v :=
    ⟨x.carry, x.overflow, by rw [hrun, State.dpArith, hx]⟩
  cases op with
  | and | eor | orr | mov | bic | mvn => exact ⟨b.carry, _, rfl⟩
  | tst | teq | cmp | cmn => cases ht
  | sub | rsb => exact harith (by simp [addWithCarry_result, DpOp.value, add_not_one]) rfl
  | add => exact harith (by simp [addWithCarry_result, DpOp.value]) rfl
  | adc => exact harith (addWithCarry_result _ _ _) rfl
  | sbc | rsc =>
    refine harith ?_ rfl
    rw [addWithCarry_result, State.carry]
    cases flagC s.cpu.cpsr <;> simp [DpOp.value, add_not]

/-- `DPWriteResult` to a register other than r15: the result, with S = 1 its flags, and nothing else (R305). -/
theorem State.dpWrite_reg {rd : RegNo} (hrd : rd ≠ 15#4) (sf : Bool) (r : Word) (c v : Bool) (s : State) :
    ∃ t, s.dpWrite sf rd r c v = .next t ∧ t.reg rd = r ∧
      (sf = true → FlagsAre (r.getLsbD 31) (r == 0#32) c v t) ∧ Keeps [rd] (if sf then nzcvMask else 0#32) s t := by
  rw [State.dpWrite, if_neg hrd]
  have hreg := Keeps.setReg rd r s
  cases sf with
  | false => exact ⟨_, rfl, State.reg_setReg hrd r s, nofun, hreg⟩
  | true =>
    refine ⟨_, rfl, ?_, fun _ => FlagsAre.setResultFlags r c v _, ?_⟩
    · rw [State.reg_setResultFlags, State.reg_setReg hrd]
    · exact (hreg.mono (fun _ h => h) BitVec.zero_and).trans
        ((Keeps.setResultFlags r c v _).mono (fun _ h => nomatch h) BitVec.and_self)

/-- `DPWriteResult` to r15 with S = 1 in a mode without SPSR raises (R305). -/
theorem State.dpWrite_noSpsr {s : State} (h : hasSpsr s.mode = false) (r : Word) (c v : Bool) :
    s.dpWrite true 15#4 r c v = .next (s.halt (.unpredictable .noSPSR)) := by
  simp only [State.dpWrite, if_true, h]
  rfl

/-! ### The restrictions of the multiplies (R350) -/

/-- A multiply is its two restrictions, r15 first, then its product. -/
theorem exec_multiply {i : Instr} (h : mulUsed i ≠ []) (s : State) : ∃ product, exec i s =
    s.guarded [((mulUsed i).contains 15#4, .mulPC), (mulOverlaps i, .mulOverlap)] product := by
  unfold mulUsed at h
  split at h
  case h_12 => exact absurd rfl h
  all_goals exact ⟨_, rfl⟩

/-- An instruction whose registers overlap against R350 is a multiply. -/
theorem mulUsed_ne_nil_of_overlaps {i : Instr} (h : mulOverlaps i = true) : mulUsed i ≠ [] := by
  unfold mulOverlaps at h
  split at h
  case h_8 => cases h
  all_goals exact List.cons_ne_nil _ _

/-- A multiply that uses r15 raises MulPC. -/
theorem exec_mulPC {i : Instr} (h : 15#4 ∈ mulUsed i) (s : State) :
    exec i s = .next (s.halt (.unpredictable .mulPC)) := by
  obtain ⟨product, hexec⟩ := exec_multiply (List.ne_nil_of_mem h) s
  exact hexec.trans (State.guarded_raise (if_pos (List.contains_iff_mem.2 h)))

/-- A multiply without r15 whose registers overlap raises MulOverlap. -/
theorem exec_mulOverlap {i : Instr} (hpc : 15#4 ∉ mulUsed i) (h : mulOverlaps i = true) (s : State) :
    exec i s = .next (s.halt (.unpredictable .mulOverlap)) := by
  obtain ⟨product, hexec⟩ := exec_multiply (mulUsed_ne_nil_of_overlaps h) s
  exact hexec.trans (State.guarded_raise ((if_neg (mt List.contains_iff_mem.1 hpc)).trans (if_pos h)))

/-! ### The obligations -/

/-- Settles O1: a legal instruction is its opcode, and a logical opcode ends in a register write with its flags. -/
theorem dataProcessingLogical : Obligations.DataProcessingLogical := by
  intro op c sf rn rd o s hl ht hrd hlegal
  rw [exec_dpInstr_legal hlegal, DpOp.run_logical hl ht]
  exact State.dpWrite_reg hrd sf _ _ _ s

/-- Settles O11: the restriction of the form, the mode without SPSR, and the two restrictions of the multiplies. -/
theorem operandRestrictions : Obligations.OperandRestrictions := by
  intro op c sf rn rd o i s
  refine ⟨fun h => ?_, fun h ht hs => ?_, fun h => exec_mulPC h s, fun hpc h => exec_mulOverlap hpc h s⟩
  · rw [exec_dpInstr, State.guarded_raise (by rw [o.firstApplying_checks, h]; rfl)]
  · obtain ⟨cf, v, hrun⟩ := DpOp.run_writes ht true 15#4 (s.reg rn) (o.shifted s) s
    rw [exec_dpInstr_legal h, hrun, State.dpWrite_noSpsr hs]

end Sys2Proof.Machine
end

section
/-! SUPPORT. The arithmetic opcodes and the compare and test opcodes: AddWithCarry as a difference with NOT borrow
(R302), the sum that each arithmetic opcode computes, and the flags by the policy of the opcode (R303, R304). -/

namespace Sys2Proof.Machine

open Sys2Proof.Config

/-! ### AddWithCarry on a complement (R302) -/

/-- A sum with a complement is the difference modulo 2^32, less one when the carry is clear. -/
theorem addWithCarry_not_result (a b : Word) (c : Bool) :
    (addWithCarry a (~~~b) c).result = a - b - (if c then 0#32 else 1#32) := by
  rw [addWithCarry_result]
  cases c with
  | true => simp [add_not_one]
  | false => simp [add_not]

/-- The carry of a sum with a complement is NOT borrow. -/
theorem addWithCarry_not_carry (a b : Word) (c : Bool) :
    (addWithCarry a (~~~b) c).carry = decide (b.toNat + (if c then 0 else 1) ≤ a.toNat) := by
  have hb := b.isLt
  rw [addWithCarry_carry, toNat_complement, decide_eq_decide]
  cases c <;> simp only [Bool.toNat_true, Bool.toNat_false, if_true, Bool.false_eq_true, if_false] <;> omega

/-- The overflow of a sum with a complement is that of the exact signed difference. -/
theorem addWithCarry_not_overflow (a b : Word) (c : Bool) :
    (addWithCarry a (~~~b) c).overflow = outOfRange32 (a.toInt - b.toInt - (if c then 0 else 1)) := by
  rw [addWithCarry_overflow, toInt_complement]
  congr 1
  cases c <;> simp only [Bool.toNat_true, Bool.toNat_false, if_true, Bool.false_eq_true, if_false] <;> omega

/-! ### The sum of an opcode (R312 to R317, R320, R321) -/

/-- The AddWithCarry that an arithmetic opcode computes. -/
def DpOp.sum (op : DpOp) (a b : Word) (c : Bool) : AddResult :=
  match op with
  | .sub | .cmp => addWithCarry a (~~~b) true
  | .rsb => addWithCarry b (~~~a) true
  | .adc => addWithCarry a b c
  | .sbc => addWithCarry a (~~~b) c
  | .rsc => addWithCarry b (~~~a) c
  | _ => addWithCarry a b false

section

variable {op : DpOp} (hl : op.logical = false) (a b : Word) (c : Bool)
include hl

/-- The sum of an arithmetic opcode has its result. -/
theorem DpOp.sum_result : (op.sum a b c).result = op.value a b c := by
  cases op with
  | sub | rsb | cmp | sbc | rsc => simp [DpOp.sum, DpOp.value, addWithCarry_not_result]
  | add | cmn | adc => simp [DpOp.sum, DpOp.value, addWithCarry_result]
  | and | eor | tst | teq | orr | mov | bic | mvn => cases hl

/-- The sum of an arithmetic opcode has its carry. -/
theorem DpOp.sum_carry : (op.sum a b c).carry = op.carryOut a.toNat b.toNat c := by
  cases op with
  | sub | rsb | cmp | sbc | rsc => simp [DpOp.sum, DpOp.carryOut, addWithCarry_not_carry]
  | add | cmn => simp [DpOp.sum, DpOp.carryOut, addWithCarry_carry]
  | adc => cases c <;> simp [DpOp.sum, DpOp.carryOut, addWithCarry_carry]
  | and | eor | tst | teq | orr | mov | bic | mvn => cases hl

/-- The sum of an arithmetic opcode has the overflow of its exact value. -/
theorem DpOp.sum_overflow : (op.sum a b c).overflow = outOfRange32 (op.exact a.toInt b.toInt c) := by
  cases op with
  | sub | rsb | cmp | sbc | rsc => simp [DpOp.sum, DpOp.exact, addWithCarry_not_overflow]
  | add | cmn => simp [DpOp.sum, DpOp.exact, addWithCarry_overflow]
  | adc => cases c <;> simp [DpOp.sum, DpOp.exact, addWithCarry_overflow]
  | and | eor | tst | teq | orr | mov | bic | mvn => cases hl

end

/-! ### The opcodes on their operands -/

/-- An arithmetic opcode that writes Rd gives its result, carry and overflow to `DPWriteResult` (R303). -/
theorem DpOp.run_arithmetic {op : DpOp} (hl : op.logical = false) (ht : op.testsOnly = false) (sf : Bool) (rd : RegNo)
    (a : Word) (b : Shifted) (s : State) : op.run sf rd a b s =
      s.dpWrite sf rd (op.value a b.value (flagC s.cpu.cpsr)) (op.carryOut a.toNat b.value.toNat (flagC s.cpu.cpsr))
        (outOfRange32 (op.exact a.toInt b.value.toInt (flagC s.cpu.cpsr))) := by
  rw [← DpOp.sum_result hl, ← DpOp.sum_carry hl, ← DpOp.sum_overflow hl]
  cases op with
  | sub | rsb | add | adc | sbc | rsc => rfl
  | tst | teq | cmp | cmn => cases ht
  | and | eor | orr | mov | bic | mvn => cases hl

/-- TST and TEQ set the flags of R304 and end. -/
theorem DpOp.run_test {op : DpOp} (hl : op.logical = true) (ht : op.testsOnly = true) (sf : Bool) (rd : RegNo)
    (a : Word) (b : Shifted) (s : State) : op.run sf rd a b s =
      .next (s.setResultFlags (op.value a b.value (flagC s.cpu.cpsr)) b.carry (flagV s.cpu.cpsr)) := by
  cases op with
  | tst | teq => rfl
  | cmp | cmn | sub | rsb | add | adc | sbc | rsc => cases hl
  | and | eor | orr | mov | bic | mvn => cases ht

/-- CMP and CMN set the flags of R303 and end. -/
theorem DpOp.run_compare {op : DpOp} (hl : op.logical = false) (ht : op.testsOnly = true) (sf : Bool) (rd : RegNo)
    (a : Word) (b : Shifted) (s : State) : op.run sf rd a b s =
      .next (s.setResultFlags (op.value a b.value (flagC s.cpu.cpsr))
        (op.carryOut a.toNat b.value.toNat (flagC s.cpu.cpsr))
        (outOfRange32 (op.exact a.toInt b.value.toInt (flagC s.cpu.cpsr)))) := by
  rw [← DpOp.sum_result hl, ← DpOp.sum_carry hl, ← DpOp.sum_overflow hl]
  cases op with
  | cmp | cmn => rfl
  | tst | teq | and | eor | orr | mov | bic | mvn => cases hl
  | sub | rsb | add | adc | sbc | rsc => cases ht

/-! ### The obligations -/

/-- Settles O2: a legal instruction is its opcode, and an arithmetic opcode ends in a register write with its flags. -/
theorem dataProcessingArithmetic : Obligations.DataProcessingArithmetic := by
  intro op c sf rn rd o s hl ht hrd hlegal a b r
  rw [exec_dpInstr_legal hlegal, DpOp.run_arithmetic hl ht]
  exact State.dpWrite_reg hrd sf _ _ _ s

/-- Settles O3: a legal instruction is its opcode, which ends in a flag update by the policy of the opcode. -/
theorem compareAndTest : Obligations.CompareAndTest := by
  intro op c sf rn rd o s ht hlegal a b r
  rw [exec_dpInstr_legal hlegal]
  cases hl : op.logical with
  | true =>
    rw [DpOp.run_test hl ht]
    exact ⟨_, rfl, FlagsAre.setResultFlags _ _ _ s, Keeps.setResultFlags _ _ _ s⟩
  | false =>
    rw [DpOp.run_compare hl ht]
    exact ⟨_, rfl, FlagsAre.setResultFlags _ _ _ s, Keeps.setResultFlags _ _ _ s⟩

end Sys2Proof.Machine
end

section
/-! SUPPORT. Data processing into r15: a branch without S (R240, R305) and the return from an exception with S (R305,
R536, R644), whose checks are those of `returnTarget` and whose writes are a switch of the bank. -/

namespace Sys2Proof.Machine

open Sys2Proof.Config

/-! ### The plain write of the program counter (R240) -/

/-- A word is aligned exactly when it leaves no remainder by 4. -/
theorem bits_zero_two_iff (a : Word) : bits 0 2 a = 0#2 ↔ a.toNat % 4 = 0 := by
  simp [bits, ← BitVec.toNat_inj]

/-- The plain target is an aligned value, or what MISALIGNED_PC makes of an unaligned one. -/
theorem State.pcTarget_plain (r : Word) (s : State) : s.pcTarget .plain r =
    if r.toNat % 4 = 0 then .ok r
    else match s.params.misalignedPc with
      | .fault => .error (.unpredictable .misalignedPC)
      | .align => .ok (alignDown r) := by
  rw [State.pcTarget, if_neg (fun h => nomatch h.1), wordAlign_eq_alignDown]
  exact if_congr (bits_zero_two_iff r) rfl rfl

/-! ### The restore of CPSR from an SPSR (R536) -/

/-- A bit within the mask of a masked write is that of the value written. -/
theorem bit_masked {n : Nat} {m : Word} (h : bit n m = true) (w v : Word) :
    bit n ((w &&& ~~~m) ||| (v &&& m)) = bit n v := by
  rw [bit] at h
  simp [bit, h, -BitVec.getLsbD_eq_getElem]

/-- A return takes the T bit of the SPSR. -/
theorem State.flagT_returnCpsr (v : Word) (s : State) : flagT (s.returnCpsr v) = flagT v :=
  bit_masked (by cases s.variant <;> rfl) _ _

/-- A return takes the mode of the SPSR. -/
theorem State.modeField_returnCpsr (v : Word) (s : State) : modeField (s.returnCpsr v) = modeField v := by
  have hmask : ∀ i < 5, bit i (psrMask s.variant) = true := by cases s.variant <;> decide
  apply BitVec.eq_of_getLsbD_eq
  intro i hi
  have hbit : bit i (s.returnCpsr v) = bit i v := bit_masked (hmask i hi) _ _
  simpa [modeField, bits, hi, bit] using hbit

/-- A restore writes every field within PSR_MASK. -/
theorem State.cpsrMask_restore (target : Word) (s : State) :
    s.cpsrMask 0xF#4 (.restore target) = psrMask s.variant := by
  rw [State.cpsrMask, if_neg (fun h => nomatch h.1)]
  cases s.variant <;> rfl

/-- The word that a restore writes. -/
theorem State.cpsrNew_restore (v target : Word) (s : State) :
    s.cpsrNew v 0xF#4 (.restore target) = s.returnCpsr v := by
  rw [State.cpsrNew, State.cpsrMask_restore, State.returnCpsr]

/-- The checks of a restore: T may not change, and the mode must be valid. -/
theorem State.cpsrCheck_restore (v target : Word) (s : State) : s.cpsrCheck v 0xF#4 (.restore target) =
    if flagT v ≠ flagT s.cpu.cpsr then .error (.unsupported (.thumbState target))
    else if validMode (modeField v) = false then .error (.unpredictable .invalidMode)
    else .ok (s.returnCpsr v) := by
  have hmode : modeField (psrMask s.variant) ≠ 0#5 := by cases s.variant <;> decide
  simp only [State.cpsrCheck, State.cpsrNew_restore, State.cpsrMask_restore, State.flagT_returnCpsr,
    State.modeField_returnCpsr, ne_eq, ite_not, hmode, not_false_eq_true, true_and]

/-! ### The return from an exception (R305, R478, R644) -/

/-- The checks of a return are those of the restore, then those of the plain write of the program counter. -/
theorem State.returnTarget_eq (v r : Word) (s : State) : s.returnTarget v r =
    (s.cpsrCheck v 0xF#4 (.restore r)).bind fun _ => s.pcTarget .plain r := by
  rw [State.cpsrCheck_restore, State.returnTarget]
  split
  · rfl
  split
  · rfl
  · exact (s.pcTarget_plain r).symm

/-- A return that passes its checks writes CPSR, then the program counter. -/
theorem State.exceptionReturn_eq (r : Word) (before : State → State) (s : State) : s.exceptionReturn r before =
    match s.returnTarget s.cpu.spsr r with
    | .ok target => .next (((before s).putCpsr (s.returnCpsr s.cpu.spsr)).setPendingPC target)
    | .error why => .next (s.halt why) := by
  rw [State.exceptionReturn, State.returnTarget_eq]
  cases hcheck : s.cpsrCheck s.cpu.spsr 0xF#4 (.restore r) with
  | error why => rfl
  | ok new =>
    obtain ⟨hnew, -⟩ := State.cpsrCheck_ok hcheck
    rw [hnew, State.cpsrNew_restore]
    cases s.pcTarget .plain r <;> rfl

/-- A CPSR write, with or without a switch, is an update of the stepping CPU that leaves the new word. -/
theorem State.putCpsr_eq_setCpu (new : Word) (s : State) : ∃ c, s.putCpsr new = s.setCpu c ∧ c.cpsr = new := by
  unfold State.putCpsr
  split
  · exact ⟨_, rfl, rfl⟩
  · exact ⟨_, rfl, Cpu.cpsr_switchTo _ new⟩

/-- A CPSR write keeps what a mode switch keeps. -/
theorem SwitchesBank.putCpsr (new : Word) (s : State) : SwitchesBank s (s.putCpsr new) := by
  unfold State.putCpsr
  split
  · next h =>
    refine ⟨fun m i => ?_, fun m => ?_, ?_⟩
    · simp only [Cpu.view, State.cpu_setCpu, h, State.mode]
    · simp only [Cpu.spsrView, State.cpu_setCpu, h, State.mode]
    · simp [State.reg]
  · refine ⟨fun m i => ?_, fun m => ?_, ?_⟩
    · rw [State.cpu_setCpu, Cpu.view_switchTo]
    · rw [State.cpu_setCpu, Cpu.spsrView_switchTo]
    · simp [State.reg]

/-- The pending target is no part of what a mode switch keeps. -/
theorem SwitchesBank.setPendingPC {s t : State} (h : SwitchesBank s t) (target : Word) :
    SwitchesBank s (t.setPendingPC target) := by
  rw [SwitchesBank, State.reg_setPendingPC, State.setPendingPC, State.cpu_setCpu]
  exact h

/-- The writes of a return: the new CPSR with its bank, the target of the program counter, and nothing else. -/
theorem State.returnWrites (new target : Word) (s : State) :
    let t := (s.putCpsr new).setPendingPC target
    t.cpu.pendingPC = some target ∧ t.cpu.cpsr = new ∧ SwitchesBank s t ∧ KeepsBlock s t ∧ KeepsBus s t := by
  have hswitch := (SwitchesBank.putCpsr new s).setPendingPC target
  obtain ⟨c, hput, hcpsr⟩ := s.putCpsr_eq_setCpu new
  rw [hput, State.setPendingPC, State.setCpu_setCpu, State.cpu_setCpu] at hswitch ⊢
  refine ⟨?_, ?_, hswitch, KeepsBlock.setCpu _ s, KeepsBus.setCpu _ s⟩
  · rw [State.cpu_setCpu]
  · rw [State.cpu_setCpu, hcpsr]

/-! ### The obligations -/

/-- Settles O4: without S the write of r15 is a plain branch, by the alignment of the result and MISALIGNED_PC. -/
theorem dataProcessingBranch : Obligations.DataProcessingBranch := by
  intro op c rn o s ht hlegal r i
  obtain ⟨cf, v, hrun⟩ := DpOp.run_writes ht false 15#4 (s.reg rn) (o.shifted s) s
  have hexec : exec i s = s.branchTo .plain r := (exec_dpInstr_legal hlegal c false s).trans hrun
  rw [hexec, State.branchTo, State.pcTarget_plain]
  refine ⟨fun ha => ?_, fun ha hp => ?_, fun ha hp => ?_⟩
  · rw [if_pos ha]; rfl
  · rw [if_neg ha, hp]; rfl
  · rw [if_neg ha, hp]; rfl

/-- Settles O5: with S the write of r15 is a return, which halts or switches the bank and sets the target. -/
theorem dataProcessingReturn : Obligations.DataProcessingReturn := by
  intro op c rn o s ht hlegal hspsr r i
  obtain ⟨cf, v, hrun⟩ := DpOp.run_writes ht true 15#4 (s.reg rn) (o.shifted s) s
  have hexec : exec i s = s.exceptionReturn r id := by
    rw [exec_dpInstr_legal hlegal, hrun, State.dpWrite, if_pos rfl, if_pos rfl, if_pos hspsr]
  rw [hexec, State.exceptionReturn_eq]
  cases s.returnTarget s.cpu.spsr r with
  | error why => rfl
  | ok target => exact ⟨_, rfl, State.returnWrites _ target s⟩

end Sys2Proof.Machine
end

section
/-! SUPPORT. The multiplies (R350 to R365): the exact products behind the results, the register pair of a long result,
the flags of R352 with the free values they draw on `v4` (log 6), the sticky Q of R360, and each instruction within R350
as its result and its end. -/

namespace Sys2Proof.Machine

/-! ### Exact products -/

/-- Four times the product of a signed value of `m` bits and one of `n` bits stays within `m + n` bits. -/
theorem abs_four_mul_toInt_mul_le {m n : Nat} (a : BitVec m) (b : BitVec n) :
    |4 * (a.toInt * b.toInt)| ≤ 2 ^ (m + n) := by
  have hbound {k : Nat} (x : BitVec k) : |2 * x.toInt| ≤ 2 ^ k :=
    abs_le.2 ⟨BitVec.le_two_mul_toInt, BitVec.two_mul_toInt_lt.le⟩
  calc |4 * (a.toInt * b.toInt)| = |2 * a.toInt| * |2 * b.toInt| := by rw [← abs_mul]; ring_nf
    _ ≤ 2 ^ m * 2 ^ n := mul_le_mul (hbound a) (hbound b) (abs_nonneg _) (by positivity)
    _ = 2 ^ (m + n) := (pow_add _ _ _).symm

/-- A product of sign-extended words is exact when the result is wide enough for both. -/
theorem toInt_signExtend_mul_signExtend {m n k : Nat} (h : m + n ≤ k) (a : BitVec m) (b : BitVec n) :
    (a.signExtend k * b.signExtend k).toInt = a.toInt * b.toInt := by
  have hwide : (2 : Int) ^ (m + n) ≤ 2 ^ k := pow_le_pow_right₀ (by decide) h
  have hpos : (0 : Int) < 2 ^ k := by positivity
  obtain ⟨hlo, hhi⟩ := abs_le.1 (abs_four_mul_toInt_mul_le a b)
  rw [BitVec.toInt_mul, BitVec.toInt_signExtend_of_le (by omega), BitVec.toInt_signExtend_of_le (by omega)]
  apply Int.bmod_eq_of_le_mul_two <;> push_cast <;> linarith

/-- Bits 47:16 of a value of at most 48 bits are its signed quotient by 2^16, rounded down (R363, R364). -/
theorem toInt_extractLsb'_middle {x : BitVec 64} (hlo : -2 ^ 47 ≤ x.toInt) (hhi : x.toInt < 2 ^ 47) :
    (x.extractLsb' 16 32).toInt = x.toInt / 65536 := by
  have hx := x.isLt
  have hmid : (x.extractLsb' 16 32).toNat = x.toNat / 65536 % 4294967296 := by
    rw [BitVec.extractLsb'_toNat, Nat.shiftRight_eq_div_pow]
  rw [BitVec.toInt_eq_toNat_cond] at hlo hhi ⊢
  rw [hmid, BitVec.toInt_eq_toNat_cond]
  split <;> split at hlo <;> omega

/-- The value of a half is that of its 16 bits. -/
theorem halfValue_eq (h : Half) (v : Word) : halfValue h v = (halfPart h v).toInt := by
  cases h <;> rfl

/-- The product of two halves fits in a word (R361, R362, R365). -/
theorem toInt_halfProduct (x y : Half) (a b : Word) :
    ((halfPart x a).signExtend 32 * (halfPart y b).signExtend 32 : Word).toInt = halfValue x a * halfValue y b := by
  rw [toInt_signExtend_mul_signExtend (by decide), halfValue_eq, halfValue_eq]

/-- Bits 47:16 of the product of a word and a half are the product of R363 and R364. -/
theorem toInt_wideProduct (y : Half) (rm rs : RegNo) (s : State) :
    (((s.reg rm).signExtend 64 * (halfPart y (s.reg rs)).signExtend 64).extractLsb' 16 32 : Word).toInt =
      s.wideProduct rm rs y := by
  have hexact : ((s.reg rm).signExtend 64 * (halfPart y (s.reg rs)).signExtend 64).toInt = _ :=
    toInt_signExtend_mul_signExtend (by decide) _ _
  have hrange : |4 * ((s.reg rm).toInt * (halfPart y (s.reg rs)).toInt)| ≤ 2 ^ 48 := abs_four_mul_toInt_mul_le _ _
  obtain ⟨hlo, hhi⟩ := abs_le.1 hrange
  rw [toInt_extractLsb'_middle (by rw [hexact]; linarith) (by rw [hexact]; linarith), hexact, State.wideProduct,
    halfValue_eq]

/-! ### The register pair (R354, R365) -/

section

variable {hi lo : RegNo} (r : BitVec 64) (s : State)

/-- A pair write changes the two registers alone. -/
theorem Keeps.setPair : Keeps [hi, lo] 0#32 s (s.setPair hi lo r) :=
  ((Keeps.setReg lo _ s).mono (by simp) BitVec.and_self).trans ((Keeps.setReg hi _ _).mono (by simp) BitVec.and_self)

/-- The pair just written, read back. -/
theorem State.pair_setPair (hhi : hi ≠ 15#4) (hlo : lo ≠ 15#4) (hne : hi ≠ lo) :
    (s.setPair hi lo r).reg hi ++ (s.setPair hi lo r).reg lo = r := by
  rw [State.setPair, State.reg_setReg hhi, State.reg_setReg_ne hne.symm, State.reg_setReg hlo]
  exact BitVec.extractLsb'_append_extractLsb'

end

/-! ### The flags of R352 -/

/-- The variant is no register. -/
@[simp] theorem State.variant_setReg (i : RegNo) (v : Word) (s : State) : (s.setReg i v).variant = s.variant :=
  congrArg CpuConfig.variant (s.setReg_cfg i v)

/-- The frame of an instruction that may also draw free values. -/
def KeepsButDraws (ds : List RegNo) (m : Word) (s t : State) : Prop :=
  KeepsCpu ds m s t ∧ KeepsBlock s t ∧ t.cpu.pendingPC = s.cpu.pendingPC ∧
  (∀ a : Nat, t.mem.read a = s.mem.read a) ∧ t.events = s.events

/-- Draws leave a frame that allows them. -/
theorem Keeps.afterDraws {ds : List RegNo} {m : Word} {s t : State} (h : Keeps ds m s t) (n : Nat) :
    KeepsButDraws ds m s (t.afterDraws n) := by
  obtain ⟨hcpu, hblock, ⟨hmem, hevents, -⟩, hpending⟩ := h
  exact ⟨hcpu, hblock, hpending, hmem, hevents⟩

/-- The flags of a multiply when S = 1, with the free values drawn for them. -/
def State.multiplyFlags (sf n z c v : Bool) (draws : Nat) (s : State) : State :=
  if sf then (s.setNZCV n z c v).afterDraws draws else s

section

variable {sf n z c v : Bool} {draws : Nat} {s : State}

/-- The registers do not depend on the flags of a multiply. -/
@[simp] theorem State.reg_multiplyFlags (i : RegNo) : (s.multiplyFlags sf n z c v draws).reg i = s.reg i := by
  cases sf with
  | false => rfl
  | true => exact State.reg_setNZCV n z c v i s

/-- With S = 1 the flags of a multiply are those given. -/
theorem FlagsAre.multiplyFlags (hsf : sf = true) : FlagsAre n z c v (s.multiplyFlags sf n z c v draws) := by
  rw [State.multiplyFlags, if_pos hsf]
  exact FlagsAre.setNZCV n z c v s

/-- Register writes and then the flags of a multiply change those registers, with S = 1 the flags, and nothing else. -/
theorem Keeps.multiplyFlags {ds : List RegNo} {s₀ : State} (h : Keeps ds 0#32 s₀ s) :
    KeepsButDraws ds (if sf then nzcvMask else 0#32) s₀ (s.multiplyFlags sf n z c v draws) := by
  cases sf with
  | false => exact h.afterDraws 0
  | true =>
    have hflags := (Keeps.setNZCV n z c v s).mono (ds' := ds) (fun _ h => nomatch h) BitVec.and_self
    exact ((h.mono (fun _ h => h) BitVec.zero_and).trans hflags).afterDraws draws

end

/-- MUL and MLA end in Rd and the flags of the result, with V kept, and C kept on `v5`. -/
theorem State.mulWrite_eq (sf : Bool) (rd : RegNo) (r : Word) (s : State) :
    ∃ c draws, (s.variant = .v5 → c = flagC s.cpu.cpsr) ∧ s.mulWrite sf rd r =
      .next ((s.setReg rd r).multiplyFlags sf (r.getLsbD 31) (r == 0#32) c (flagV s.cpu.cpsr) draws) := by
  have hcpsr := s.setReg_cpsr rd r
  rw [State.mulWrite, State.mulFlags, State.variant_setReg, hcpsr]
  cases s.variant with
  | v4 => exact ⟨_, 1, nofun, rfl⟩
  | v5 => exact ⟨_, 0, fun _ => rfl, rfl⟩

/-- The long multiplies end in the pair and the flags of the 64-bit result, with C and V kept on `v5`. -/
theorem State.longWrite_eq (sf : Bool) (hi lo : RegNo) (r : BitVec 64) (s : State) :
    ∃ c v draws, (s.variant = .v5 → c = flagC s.cpu.cpsr ∧ v = flagV s.cpu.cpsr) ∧ s.longWrite sf hi lo r =
      .next ((s.setPair hi lo r).multiplyFlags sf (r.getLsbD 63) (r == 0#64) c v draws) := by
  have hcpsr : (s.setPair hi lo r).cpu.cpsr = s.cpu.cpsr := by simp [State.setPair]
  have hvariant : (s.setPair hi lo r).variant = s.variant := by simp [State.setPair]
  rw [State.longWrite, State.longFlags, hvariant, hcpsr]
  cases s.variant with
  | v4 => exact ⟨_, _, 2, nofun, rfl⟩
  | v5 => exact ⟨_, _, 0, fun _ => ⟨rfl, rfl⟩, rfl⟩

/-- The end of MUL and MLA: Rd, with S = 1 the flags, and nothing else but draws. -/
theorem State.mulWrite_reg {rd : RegNo} (hrd : rd ≠ 15#4) (sf : Bool) (r : Word) (s : State) :
    ∃ t, s.mulWrite sf rd r = .next t ∧ t.reg rd = r ∧
      (sf = true → flagN t.cpu.cpsr = r.getLsbD 31 ∧ flagZ t.cpu.cpsr = (r == 0#32) ∧
        flagV t.cpu.cpsr = flagV s.cpu.cpsr ∧ (s.variant = .v5 → flagC t.cpu.cpsr = flagC s.cpu.cpsr)) ∧
      KeepsButDraws [rd] (if sf then nzcvMask else 0#32) s t := by
  obtain ⟨c, draws, hc, hwrite⟩ := s.mulWrite_eq sf rd r
  refine ⟨_, hwrite, ?_, fun hsf => ?_, (Keeps.setReg rd r s).multiplyFlags⟩
  · rw [State.reg_multiplyFlags, State.reg_setReg hrd]
  · obtain ⟨hN, hZ, hC, hV⟩ := FlagsAre.multiplyFlags hsf
    exact ⟨hN, hZ, hV, fun hv => hC.trans (hc hv)⟩

/-- The end of a long multiply: the pair, with S = 1 the flags, and nothing else but draws. -/
theorem State.longWrite_pair {hi lo : RegNo} (hhi : hi ≠ 15#4) (hlo : lo ≠ 15#4) (hne : hi ≠ lo) (sf : Bool)
    (r : BitVec 64) (s : State) :
    ∃ t, s.longWrite sf hi lo r = .next t ∧ t.reg hi ++ t.reg lo = r ∧
      (sf = true → flagN t.cpu.cpsr = r.getLsbD 63 ∧ flagZ t.cpu.cpsr = (r == 0#64) ∧
        (s.variant = .v5 → flagC t.cpu.cpsr = flagC s.cpu.cpsr ∧ flagV t.cpu.cpsr = flagV s.cpu.cpsr)) ∧
      KeepsButDraws [hi, lo] (if sf then nzcvMask else 0#32) s t := by
  obtain ⟨c, v, draws, hcv, hwrite⟩ := s.longWrite_eq sf hi lo r
  refine ⟨_, hwrite, ?_, fun hsf => ?_, (Keeps.setPair r s).multiplyFlags⟩
  · rw [State.reg_multiplyFlags, State.reg_multiplyFlags, State.pair_setPair r s hhi hlo hne]
  · obtain ⟨hN, hZ, hC, hV⟩ := FlagsAre.multiplyFlags hsf
    exact ⟨hN, hZ, fun hv => ⟨hC.trans (hcv hv).1, hV.trans (hcv hv).2⟩⟩

/-! ### The sticky Q (R360, R561) -/

/-- A write of Q changes that bit alone. -/
theorem Keeps.stickQ (q : Bool) (s : State) : Keeps [] 0x08000000#32 s (s.stickQ q) := by
  unfold State.stickQ
  split
  · exact Keeps.setCpsr _ _ s (setBit_and (by decide) true _)
  · exact (Keeps.refl s).mono (fun _ h => h) BitVec.zero_and

/-- Q is set on `v5` when the condition holds, and never cleared. -/
theorem State.flagQ_stickQ (q : Bool) (s : State) :
    flagQ (s.stickQ q).cpu.cpsr = (flagQ s.cpu.cpsr || (s.variant == .v5 && q)) := by
  rw [State.stickQ, Bool.and_comm]
  cases s.variant == .v5 && q with
  | false => rw [Bool.or_false]; rfl
  | true => rw [if_pos rfl, State.cpu_setCpu, flagQ, bit_setBit_self 27 (by decide), Bool.or_true]

/-- A register write and then Q: the register, Q by the condition, and nothing else. -/
theorem State.setReg_stickQ {rd : RegNo} (hrd : rd ≠ 15#4) (r : Word) (q : Bool) (s : State) :
    let t := (s.setReg rd r).stickQ q
    t.reg rd = r ∧ flagQ t.cpu.cpsr = (flagQ s.cpu.cpsr || (s.variant == .v5 && q)) ∧
      Keeps [rd] 0x08000000#32 s t := by
  refine ⟨?_, ?_, ?_⟩
  · rw [State.reg_stickQ, State.reg_setReg hrd]
  · rw [State.flagQ_stickQ, State.setReg_cpsr, State.variant_setReg]
  · exact ((Keeps.setReg rd r s).mono (fun _ h => h) BitVec.zero_and).trans
      ((Keeps.stickQ q _).mono (fun _ h => nomatch h) BitVec.and_self)

/-! ### The instructions within R350 -/

/-- A multiply that breaks no restriction is its product. -/
theorem exec_multiply_legal {i : Instr} {s : State} {product : Result} (hpc : ∀ r ∈ mulUsed i, r ≠ 15#4)
    (hov : mulOverlaps i = false)
    (hexec : exec i s =
      s.guarded [((mulUsed i).contains 15#4, .mulPC), (mulOverlaps i, .mulOverlap)] product) :
    exec i s = product := by
  have hused : (mulUsed i).contains 15#4 = false := by
    rw [← Bool.not_eq_true, List.contains_iff_mem]
    exact fun h => hpc _ h rfl
  rw [hexec, State.guarded_pass (by rw [hused, hov]; rfl)]

/-- The end of SMLA and SMLAW for a product that is a word: the wrapped sum, Q by the exact sum, and nothing else. -/
theorem State.accumulateWrite_reg {rd : RegNo} (hrd : rd ≠ 15#4) (p a : Word) (s : State) :
    ∃ t, s.accumulateWrite rd (p.toInt + a.toInt) = .next t ∧ t.reg rd = p + a ∧
      flagQ t.cpu.cpsr = (flagQ s.cpu.cpsr || (s.variant == .v5 && outOfRange32 (p.toInt + a.toInt))) ∧
      Keeps [rd] 0x08000000#32 s t := by
  have hsum : BitVec.ofInt 32 (p.toInt + a.toInt) = p + a := by
    rw [BitVec.ofInt_add, BitVec.ofInt_toInt, BitVec.ofInt_toInt]
  rw [State.accumulateWrite, hsum]
  exact ⟨_, rfl, State.setReg_stickQ hrd _ _ s⟩

/-! ### The obligations -/

/-- Settles O8: within R350 the instruction is the end of MUL and MLA on the product modulo 2^32. -/
theorem multiplyWord : Obligations.MultiplyWord := by
  intro c sf rd rn rs rm s hd hs hm hov done
  have hdisjoint : (rd == rm) = false := beq_false_of_ne hov
  have hend {i : Instr} {r' r : Word} (hexec : exec i s = s.mulWrite sf rd r') (hr : r' = r) :
      ∃ t, exec i s = .next t ∧ done r t := by
    rw [hexec, hr]
    exact s.mulWrite_reg hd sf r
  refine ⟨?_, fun hn => ?_⟩
  · have hused : ∀ r ∈ [rd, rs, rm], r ≠ 15#4 := by simp [*]
    refine hend (exec_multiply_legal hused hdisjoint rfl) ?_
    simp only [BitVec.ofNat_mul, BitVec.ofNat_toNat, BitVec.setWidth_eq]
  · have hused : ∀ r ∈ [rd, rn, rs, rm], r ≠ 15#4 := by simp [*]
    refine hend (exec_multiply_legal hused hdisjoint rfl) ?_
    simp only [BitVec.ofNat_add, BitVec.ofNat_mul, BitVec.ofNat_toNat, BitVec.setWidth_eq]

/-- Settles O9: within R350 the instruction is the end of the long multiplies on the product modulo 2^64. -/
theorem multiplyLong : Obligations.MultiplyLong := by
  intro c sf hi lo rs rm s hhi hlo hs hm hne hhm hlm done unsigned signed old
  have hused : ∀ r ∈ [hi, lo, rs, rm], r ≠ 15#4 := by simp [*]
  have hdisjoint : (hi == lo || hi == rm || lo == rm) = false := by simp [*]
  have hend {i : Instr} {r' r : BitVec 64} (hexec : exec i s = s.longWrite sf hi lo r') (hr : r' = r) :
      ∃ t, exec i s = .next t ∧ done r t := by
    rw [hexec, hr]
    exact s.longWrite_pair hhi hlo hne sf r
  have hunsigned : BitVec.ofNat 64 ((s.reg rm).toNat * (s.reg rs).toNat) = unsigned := by
    rw [BitVec.ofNat_mul, BitVec.ofNat_toNat, BitVec.ofNat_toNat]
  have hsigned : BitVec.ofInt 64 ((s.reg rm).toInt * (s.reg rs).toInt) = signed := BitVec.ofInt_mul _ _
  have hold : BitVec.ofNat 64 (s.pairValue hi lo) = old := by
    rw [State.pairValue, BitVec.ofNat_toNat, BitVec.setWidth_eq]
  refine ⟨hend (exec_multiply_legal hused hdisjoint rfl) hunsigned, hend (exec_multiply_legal hused hdisjoint rfl) ?_,
    hend (exec_multiply_legal hused hdisjoint rfl) hsigned, hend (exec_multiply_legal hused hdisjoint rfl) ?_⟩
  · rw [BitVec.ofNat_add, hunsigned, hold]
  · rw [BitVec.ofInt_add, BitVec.ofInt_natCast, hsigned, hold]

/-- Settles O10: the products fit in a word, so each instruction writes or accumulates a word. -/
theorem multiplyHalfword : Obligations.MultiplyHalfword := by
  intro c rd rn rs rm x y s hd hn hs hm p32 w32 accumulated
  have hp : p32.toInt = halfValue x (s.reg rm) * halfValue y (s.reg rs) := toInt_halfProduct x y _ _
  have hw : w32.toInt = s.wideProduct rm rs y := toInt_wideProduct y rm rs s
  have hwrite {i : Instr} {p : Word} (hexec : exec i s = .next (s.setReg rd (BitVec.ofInt 32 p.toInt))) :
      ∃ t, exec i s = .next t ∧ t.reg rd = p ∧ Keeps [rd] 0#32 s t := by
    rw [BitVec.ofInt_toInt] at hexec
    exact ⟨_, hexec, State.reg_setReg hd p s, Keeps.setReg rd p s⟩
  have hacc {i : Instr} {p : Word} (hexec : exec i s = s.accumulateWrite rd (p.toInt + (s.reg rn).toInt)) :
      ∃ t, exec i s = .next t ∧ accumulated p t := by
    rw [hexec]
    exact s.accumulateWrite_reg hd p (s.reg rn)
  have hmul : ∀ r ∈ [rd, rs, rm], r ≠ 15#4 := by simp [*]
  have hmla : ∀ r ∈ [rd, rn, rs, rm], r ≠ 15#4 := by simp [*]
  refine ⟨hwrite ?_, hwrite ?_, hacc ?_, hacc ?_, fun hne => ?_⟩
  · rw [hp]; exact exec_multiply_legal hmul rfl rfl
  · rw [hw]; exact exec_multiply_legal hmul rfl rfl
  · rw [hp]; exact exec_multiply_legal hmla rfl rfl
  · rw [hw]; exact exec_multiply_legal hmla rfl rfl
  · refine ⟨_, exec_multiply_legal hmla (beq_false_of_ne hne) rfl, ?_, Keeps.setPair _ s⟩
    rw [State.pair_setPair _ s hd hn hne, ← hp, BitVec.ofInt_add, BitVec.ofInt_natCast, State.pairValue,
      BitVec.ofNat_toNat, BitVec.setWidth_eq]
    rfl

end Sys2Proof.Machine
end

section
/-! SUPPORT. Restrictions of single loads and stores and of block transfers (R404, R423, R440, R472): the checks of each
operation answer the first restriction that it breaks. -/

namespace Sys2Proof.Machine

open Sys2Proof.Config

/-- Checks that come later do not replace the first that applies. -/
theorem firstApplying_append {checks : List (Bool × UnpredictableReason)} {why : UnpredictableReason}
    (h : firstApplying checks = some why) (later : List (Bool × UnpredictableReason)) :
    firstApplying (checks ++ later) = some why := by
  induction checks with
  | nil => cases h
  | cons check rest ih =>
    obtain ⟨applies, r⟩ := check
    cases applies with
    | true => exact h
    | false => exact ih h

/-- Checks that come later decide when none of the first applies. -/
theorem firstApplying_append_of_none {checks : List (Bool × UnpredictableReason)} (h : firstApplying checks = none)
    (later : List (Bool × UnpredictableReason)) : firstApplying (checks ++ later) = firstApplying later := by
  induction checks with
  | nil => rfl
  | cons check rest ih =>
    obtain ⟨applies, r⟩ := check
    cases applies with
    | true => cases h
    | false => exact ih h

/-! ### Single loads and stores -/

/-- The transfer of a form is guarded by its checks; LDR of r15 has one more after them (R407). -/
theorem LsForm.run_guarded (f : LsForm) (s : State) :
    ∃ later k, f.run s = s.guarded (f.checks s ++ later) k := by
  have hguarded {checks : List (Bool × UnpredictableReason)} {k : Result} (h : f.run s = s.guarded checks k)
      (hc : f.checks s = checks) : ∃ later k, f.run s = s.guarded (f.checks s ++ later) k :=
    ⟨[], k, by rw [List.append_nil, h, hc]⟩
  obtain ⟨kind, x, rn, rd, o⟩ := f
  cases kind with
  | ldr =>
    by_cases hrd : rd = 15#4
    · exact ⟨_, _, if_pos hrd⟩
    · exact hguarded (if_neg hrd) rfl
  | ldrd | strd => exact hguarded rfl (by rw [LsForm.checks, ← LsForm.transferAddress_eq])
  | _ => exact hguarded rfl rfl

/-- A form that breaks a restriction halts with the first one. -/
theorem exec_lsTrap {i : Instr} {f : LsForm} {s : State} {why : UnpredictableReason} (hf : lsForm i = some f)
    (ht : f.trap s = some why) : exec i s = .next (s.halt (.unpredictable why)) := by
  obtain ⟨later, k, hrun⟩ := f.run_guarded s
  rw [exec_eq_run hf, hrun]
  exact State.guarded_raise (firstApplying_append ((f.firstApplying_checks s).trans ht) later)

/-! ### Block transfers -/

/-- A register is in the first slot of a block exactly when the list names none below it. -/
theorem slotOf_eq_zero (list : BitVec 16) (n : Nat) : slotOf list n = 0 ↔ ∀ k < n, list.getLsbD k = false := by
  simp [slotOf]

/-- A listed register is the lowest of its list exactly when its slot is the first. -/
theorem listedRegs_head? {list : BitVec 16} {rn : RegNo} (h : list.getLsbD rn.toNat = true) :
    (listedRegs list).head? = some rn ↔ slotOf list rn.toNat = 0 := by
  have hfind : (listedRegs list).head? = ((List.range 16).find? list.getLsbD).map (BitVec.ofNat 4) := by
    rw [listedRegs, List.head?_map, List.head?_filter]
  have hnum : (listedRegs list).head? = some rn ↔ (List.range 16).find? list.getLsbD = some rn.toNat := by
    rw [hfind, Option.map_eq_some_iff]
    constructor
    · rintro ⟨k, hk, rfl⟩
      have hlt := List.mem_range.1 (List.mem_of_find?_eq_some hk)
      rw [hk, BitVec.toNat_ofNat, Nat.mod_eq_of_lt hlt]
    · exact fun hk => ⟨_, hk, by simp⟩
  rw [hnum, List.find?_range_eq_some, slotOf_eq_zero]
  simp [h, rn.isLt]

/-- The list of LDM of user registers, in its two spellings. -/
theorem zero_append_low (low : BitVec 15) : (0#1 ++ low : BitVec 16) = low.setWidth 16 := by
  apply BitVec.eq_of_getLsbD_eq
  intro i hi
  simp only [BitVec.getLsbD_append, BitVec.getLsbD_setWidth, BitVec.getLsbD_zero, hi, decide_true, Bool.true_and]
  split
  · rfl
  · rw [BitVec.getLsbD_of_ge low i (by omega)]

/-- The list of LDM with return, in its two spellings. -/
theorem one_append_low (low : BitVec 15) : (1#1 ++ low : BitVec 16) = low.setWidth 16 ||| 0x8000#16 := by
  apply BitVec.eq_of_getLsbD_eq
  intro i hi
  simp only [BitVec.getLsbD_append, BitVec.getLsbD_or, BitVec.getLsbD_setWidth, hi, decide_true, Bool.true_and]
  interval_cases i <;> simp

/-- The checks of LDM are the restrictions of R472. -/
theorem firstApplying_ldm (c : Cond) (p u w : Bool) (rn : RegNo) (list : BitVec 16) (s : State) :
    firstApplying (blockChecks rn list ++ ldmOverlapCheck w rn list) = blockTrap (.ldm c p u w rn list) s := by
  simp [blockChecks, ldmOverlapCheck, firstApplying, blockTrap]

/-- The checks of STM are the restrictions of R472; the lowest register of the list is the one in the first slot. -/
theorem firstApplying_stm (c : Cond) (p u w : Bool) (rn : RegNo) (list : BitVec 16) (s : State) :
    firstApplying (blockChecks rn list ++ stmOverlapCheck w rn list) = blockTrap (.stm c p u w rn list) s := by
  have hlowest : (w && list.getLsbD rn.toNat && (listedRegs list).head? != some rn) =
      decide (w = true ∧ list.getLsbD rn.toNat = true ∧ slotOf list rn.toNat ≠ 0) := by
    cases hbit : list.getLsbD rn.toNat with
    | false => simp
    | true => simp [← listedRegs_head? hbit, bne, Bool.decide_and, Bool.beq_eq_decide_eq]
  simp [blockChecks, stmOverlapCheck, firstApplying, blockTrap, hlowest, -BitVec.getLsbD_eq_getElem]

/-- The checks of STM of user registers are the restrictions of R472. -/
theorem firstApplying_stmUser (c : Cond) (p u w : Bool) (rn : RegNo) (list : BitVec 16) (s : State) :
    firstApplying (blockChecks rn list ++ s.userBankChecks w) = blockTrap (.stmUser c p u w rn list) s := by
  simp [blockChecks, State.userBankChecks, firstApplying, blockTrap]

/-- The checks of LDM of user registers are the restrictions of R472: its list has bit 15 clear. -/
theorem firstApplying_ldmUser (c : Cond) (p u w : Bool) (rn : RegNo) (low : BitVec 15) (s : State) :
    firstApplying (blockChecks rn (0#1 ++ low) ++ s.userBankChecks w) = blockTrap (.ldmUser c p u w rn low) s := by
  have hempty : low.setWidth 16 = 0#16 ↔ low = 0#15 := by
    rw [← BitVec.toNat_inj, ← BitVec.toNat_inj, BitVec.toNat_setWidth_of_le (by omega), BitVec.toNat_ofNat,
      BitVec.toNat_ofNat]
  rw [zero_append_low]
  simp [blockChecks, State.userBankChecks, firstApplying, blockTrap, hempty]

/-- The checks of LDM with return are the restrictions of R472: its list has bit 15 set, and its base is not r15. -/
theorem firstApplying_ldmReturn (c : Cond) (p u w : Bool) (rn : RegNo) (low : BitVec 15) (s : State) :
    firstApplying (blockChecks rn (1#1 ++ low) ++ ldmOverlapCheck w rn (1#1 ++ low) ++ [(!hasSpsr s.mode, .noSPSR)]) =
      blockTrap (.ldmReturn c p u w rn low) s := by
  have hlisted : (low.setWidth 16 ||| 0x8000#16) ≠ 0#16 := by
    intro h
    have hbit := congrArg (BitVec.getLsbD · 15) h
    simp at hbit
  rw [one_append_low]
  by_cases hbase : rn = 15#4
  · simp [blockChecks, firstApplying, blockTrap, hbase]
  · have hbit : (low.setWidth 16 ||| 0x8000#16).getLsbD rn.toNat = low.getLsbD rn.toNat := by
      have hlt : rn.toNat < 15 := by
        have := rn.isLt
        have : rn.toNat ≠ 15 := fun h => hbase (BitVec.eq_of_toNat_eq h)
        omega
      have hmsb : ∀ n < 15, (0x8000#16).getLsbD n = false := by decide
      rw [BitVec.getLsbD_or, hmsb _ hlt, Bool.or_false, BitVec.getLsbD_setWidth, decide_eq_true (by omega),
        Bool.true_and]
    simp [blockChecks, ldmOverlapCheck, firstApplying, blockTrap, hlisted, hbase, hbit, -BitVec.getLsbD_eq_getElem]

/-- A block transfer that breaks a restriction halts with the first one. -/
theorem exec_blockTrap {i : Instr} {s : State} {why : UnpredictableReason} (h : blockTrap i s = some why) :
    exec i s = .next (s.halt (.unpredictable why)) := by
  cases i with
  | ldm c p u w rn list => exact State.guarded_raise ((firstApplying_ldm c p u w rn list s).trans h)
  | ldmUser c p u w rn low => exact State.guarded_raise ((firstApplying_ldmUser c p u w rn low s).trans h)
  | ldmReturn c p u w rn low => exact State.guarded_raise ((firstApplying_ldmReturn c p u w rn low s).trans h)
  | stm c p u w rn list => exact State.guarded_raise ((firstApplying_stm c p u w rn list s).trans h)
  | stmUser c p u w rn list => exact State.guarded_raise ((firstApplying_stmUser c p u w rn list s).trans h)
  | _ => cases h

/-- Settles O24: the checks of a form, and those of a block transfer, answer the first restriction that it breaks. -/
theorem transferRestrictions : Obligations.TransferRestrictions :=
  fun _ _ _ => ⟨fun _ => exec_lsTrap, exec_blockTrap⟩

end Sys2Proof.Machine
end

section
/-! SUPPORT. The rows that the spec stops or makes no-ops (R455, R456, R503, R596, R602, R603). -/

namespace Sys2Proof.Machine

open Sys2Proof.Config

/-- A coprocessor instruction raises with its number, whatever its other fields (R596). -/
theorem exec_coprocessor {i : Instr} {cp : BitVec 4} (h : coprocessorNumber i = some cp) (s : State) :
    exec i s = .next (s.halt (.unsupported (.coprocessor cp))) := by
  unfold coprocessorNumber at h
  split at h <;> cases h <;> rfl

/-- The offset of BLX (immediate) is four times the signed immediate, plus 2 for H (R503). -/
theorem signExtend_thumbOffset (h : Bool) (imm : BitVec 24) :
    (imm ++ BitVec.ofBool h ++ 0#1).signExtend 32 = BitVec.ofInt 32 (4 * imm.toInt + if h then 2 else 0) := by
  rw [BitVec.signExtend, BitVec.toInt_append, BitVec.toInt_append]
  cases h <;> simp [← Int.mul_assoc, Int.mul_add]

/-- Settles O35: the coprocessor rows by their number, the target of BLX (immediate) by its offset; each of the other
rows is its definition. -/
theorem unsupportedAndUnconditional : Obligations.UnsupportedAndUnconditional := by
  intro i cp h imm w u rn off o s target
  have htarget : s.thumbTarget h imm = target := by rw [State.thumbTarget, signExtend_thumbOffset]
  have hnv : exec (.nvV4 w) s = execNvV4 w s := rfl
  refine ⟨fun hi => exec_coprocessor hi s, ?_, rfl, rfl, fun hn => ?_, fun hf => ?_, rfl, rfl, rfl⟩
  · rw [← htarget]; rfl
  · rw [hnv, execNvV4, hn]
  · rw [hnv, execNvV4, hf]; rfl

end Sys2Proof.Machine
end

section
/-! SUPPORT. Accesses of single loads and stores that are done (R406, R411 to R413, R425 to R428): the value of a load by
the lane of its address, and the word that a store writes, byte by byte. -/

namespace Sys2Proof.Machine

open Sys2Proof.Config

/-! ### Addresses -/

/-- An aligned address is its own word address. -/
theorem alignDown_of_aligned {a : Word} (h : a.toNat % 4 = 0) : alignDown a = a := by
  rw [alignDown, h]; exact BitVec.sub_zero a

/-- A lane is one of the four bytes of a word (R110). -/
theorem laneOf_lt (e : Endian) (a : Word) : laneOf e a < 4 := by
  cases e <;> simp only [laneOf] <;> omega

/-! ### Bytes of a word -/

/-- A bit of a word with a lane replaced: that of the lane within it, else that of the word. -/
theorem getLsbD_insertLane {n : Nat} (lo : Nat) (v : BitVec n) (w : Word) {i : Nat} (hi : i < 32) :
    (insertLane lo v w).getLsbD i = if lo ≤ i ∧ i < lo + n then v.getLsbD (i - lo) else w.getLsbD i := by
  by_cases hlo : lo ≤ i
  · by_cases hn : i < lo + n
    · simp [insertLane, field, hi, hlo, hn, show ¬i < lo by omega, show i - lo < 32 by omega, show i - lo < n by omega,
        -BitVec.getLsbD_eq_getElem]
    · simp [insertLane, field, hi, hn, show ¬i < lo by omega, show i - lo < 32 by omega, show ¬i - lo < n by omega,
        BitVec.getLsbD_of_ge v (i - lo) (by omega), -BitVec.getLsbD_eq_getElem]
  · simp [insertLane, field, hi, hlo, show i < lo by omega, -BitVec.getLsbD_eq_getElem]

/-- A bit of a byte of a word. -/
theorem getLsbD_byteOf (w : Word) (k : Nat) {i : Nat} (hi : i < 8) :
    (byteOf w k).getLsbD i = w.getLsbD (8 * k + i) := by
  simp [byteOf, hi]

/-- Byte `n` of a word whose byte `k` is replaced. -/
theorem byteOf_insertByte (k : Nat) (v : Byte) (w : Word) {n : Nat} (hn : n < 4) :
    byteOf (insertLane (8 * k) v w) n = if n = k then v else byteOf w n := by
  apply BitVec.eq_of_getLsbD_eq
  intro i hi
  rw [getLsbD_byteOf _ _ hi, getLsbD_insertLane _ _ _ (by omega)]
  split
  · next h => rw [if_pos (by omega)]; congr 1; omega
  · next h => rw [if_neg (by omega), getLsbD_byteOf _ _ hi]

/-- Byte `n` of a word whose halfword `k` is replaced by the low half of another. -/
theorem byteOf_insertHalf (k : Nat) (x w : Word) {n : Nat} (hn : n < 4) :
    byteOf (insertLane (16 * k) (bits 0 16 x) w) n = if n / 2 = k then byteOf x (n % 2) else byteOf w n := by
  apply BitVec.eq_of_getLsbD_eq
  intro i hi
  rw [getLsbD_byteOf _ _ hi, getLsbD_insertLane _ _ _ (by omega)]
  split
  · next h =>
    rw [if_pos (by omega), getLsbD_byteOf _ _ hi, bits, BitVec.getLsbD_extractLsb', decide_eq_true (by omega),
      Bool.true_and]
    congr 1; omega
  · next h => rw [if_neg (by omega), getLsbD_byteOf _ _ hi]

/-- A word is known by its four bytes. -/
theorem eq_of_byteOf_eq {v w : Word} (h : ∀ n < 4, byteOf v n = byteOf w n) : v = w := by
  apply BitVec.eq_of_getLsbD_eq
  intro i hi
  have hbyte := congrArg (BitVec.getLsbD · (i % 8)) (h (i / 8) (by omega))
  simpa only [getLsbD_byteOf _ _ (Nat.mod_lt i (by omega : 0 < 8)), Nat.div_add_mod] using hbyte

/-- Byte `n` of a word in memory is the byte at its place (R118). -/
theorem Memory.byteOf_readWord (m : Memory) (p : Nat) {n : Nat} (hn : n < 4) :
    byteOf (m.readWord p) n = m.read (p + n) := by
  rw [← bits_byte, Memory.readWord, wordOfBytes]
  interval_cases n <;> simp [bits_or, bits_field_self, bits_field_above, bits_field_below]

/-- The byte at place `n` of a stored word (R118). -/
theorem Memory.read_writeWord_byte (p : Nat) (v : Word) {m : Memory} (hm : m.wf = true) {n : Nat} (hn : n < 4) :
    (m.writeWord p v).read (p + n) = byteOf v n := by
  obtain ⟨h0, h1, h2, h3⟩ := Memory.read_writeWord p v hm
  rw [← bits_byte]
  interval_cases n
  exacts [h0, h1, h2, h3]

/-- A place of a raw buffer has every byte of the word stored there, and the other bytes as before. -/
theorem Memory.read_writeWord_eq (p : Nat) (v : Word) {m : Memory} (hm : m.wf = true) (a : Nat) :
    (m.writeWord p v).read a = if p ≤ a ∧ a < p + 4 then byteOf v (a - p) else m.read a := by
  split
  · next h =>
    obtain ⟨n, rfl⟩ := Nat.exists_eq_add_of_le h.1
    rw [Memory.read_writeWord_byte p v hm (by omega), Nat.add_sub_cancel_left]
  · exact Memory.read_writeWord_ne (by omega) v m

/-! ### Loads -/

/-- The rotation of a loaded word (R406). -/
theorem State.loadWord_done {a w : Word} {s t : State} (h : s.busRead32 (alignDown a) = .done w t) :
    s.loadWord a = .done (w.rotateRight (8 * (a.toNat % 4))) t := by
  have hlow : (bits 0 2 a).toNat = a.toNat % 4 := by simp [bits]
  rw [State.loadWord, State.memRead32_eq, h, hlow, Access.map]

/-- A load whose read is answered is done with the value that its kind makes of the word (R406, R411, R425 to R427). -/
theorem LsKind.load_loaded {a w : Word} {s t : State} (k : LsKind) (h : s.busRead32 (alignDown a) = .done w t) :
    k.load a s = .done (k.loaded s.endian a w) t := by
  cases k with
  | ldrb => exact congrArg (Access.map _) (State.memRead8_done h)
  | ldrsb => exact congrArg (Access.map _) (State.memRead8_done h)
  | ldrh => exact congrArg (Access.map _) (State.memRead16_done h)
  | ldrsh => exact congrArg (Access.map _) (State.memRead16_done h)
  | _ => exact State.loadWord_done h

/-! ### Stores -/

/-- The word that a single store of `x` writes over `w` (R114 to R116). -/
def LsKind.storedWord (k : LsKind) (e : Endian) (a x w : Word) : Word :=
  match k with
  | .strb => insertLane (8 * laneOf e a) (bits 0 8 x) w
  | .strh => insertLane (16 * halfLaneOf e a) (bits 0 16 x) w
  | _ => x

/-- The bytes of the word that a single store writes: those of its lanes, and the others of the word read. -/
theorem LsKind.byteOf_storedWord (k : LsKind) (e : Endian) (a x w : Word) {n : Nat} (hn : n < 4) :
    byteOf (k.storedWord e a x w) n = match k.storedLane e a n with
      | some j => byteOf x j
      | none => byteOf w n := by
  cases k with
  | strb =>
    rw [LsKind.storedWord, byteOf_insertByte _ _ _ hn, LsKind.storedLane]
    split
    · exact bits_byte 0 x
    · rfl
  | strh =>
    rw [LsKind.storedWord, byteOf_insertHalf _ _ _ hn, LsKind.storedLane]
    split <;> rfl
  | _ => rfl

/-- A byte store replaces the byte of its lane by the low byte of its register (R116). -/
theorem byteOf_storedByte (e : Endian) (a x w : Word) {n : Nat} (hn : n < 4) :
    byteOf (LsKind.strb.storedWord e a x w) n = if n = laneOf e a then x.setWidth 8 else byteOf w n := by
  have hlow : bits 0 8 x = x.setWidth 8 := (bits_byte 0 x).trans (by simp [byteOf])
  rw [LsKind.storedWord, byteOf_insertByte _ _ _ hn, hlow]

/-- A word store whose write is made is done (R114). -/
theorem LsKind.store_word_done {a x : Word} {s t : State} (h : s.Writes (alignDown a) x t) :
    LsKind.str.store x a s = .done () t :=
  (State.memWrite32_eq a x s).trans (State.busWrite32_done.2 h)

/-- A byte or halfword store whose read and write are answered is done (R115, R116). -/
theorem LsKind.store_lane_done {a x w : Word} {s s1 s2 : State} {k : LsKind} (hk : k ∈ [LsKind.strb, .strh])
    (hr : s.Reads (alignDown a) w s1) (hw : s1.Writes (alignDown a) (k.storedWord s.endian a x w) s2) :
    k.store x a s = .done () s2 := by
  have hread := State.busRead32_done.2 hr
  have hwrite := State.busWrite32_done.2 hw
  rcases List.mem_pair.1 hk with rfl | rfl
  · change s.memWrite8 a (bits 0 8 x) = _
    rw [State.memWrite8, wordAlign_eq_alignDown, byteLane_eq_laneOf, hread]
    exact hwrite
  · change s.memWrite16 a (bits 0 16 x) = _
    rw [State.memWrite16, wordAlign_eq_alignDown, halfLane_eq_halfLaneOf, hread]
    exact hwrite

/-- A store to raw memory is done, with the stored word in the place of the address (R105). -/
theorem LsKind.store_raw {a x : Word} {s : State} {k : LsKind} {p : Nat} (hk : k ∈ [LsKind.str, .strb, .strh])
    (h : s.rawAt a p) :
    k.store x a s = .done () { s with mem := s.mem.writeWord p (k.storedWord s.endian a x (s.mem.readWord p)) } := by
  obtain ⟨hread, hwrite⟩ := h
  rcases List.mem_cons.1 hk with rfl | hk
  · exact LsKind.store_word_done (State.busWrite32_done.1 (State.busWrite32_raw hwrite))
  · exact LsKind.store_lane_done hk (State.busRead32_done.1 (State.busRead32_raw hread))
      (State.busWrite32_done.1 (State.busWrite32_raw hwrite))

end Sys2Proof.Machine
end

section
/-! SUPPORT. The register writes of single loads and stores (R403): what bus calls keep, the write-back of the base, the
writes of a load, and what the restrictions leave to an instruction that breaks none. -/

namespace Sys2Proof.Machine

open Sys2Proof.Config

/-! ### Bus calls -/

/-- Nothing but bus calls: the stepping CPU and the block round it are as before. -/
def State.BusOnly (s t : State) : Prop := t.cpu = s.cpu ∧ KeepsBlock s t

section

variable {s t u : State} {a v w : Word}

/-- One call after another. -/
theorem State.BusOnly.trans (h : s.BusOnly t) (k : t.BusOnly u) : s.BusOnly u := ⟨k.1.trans h.1, h.2.trans k.2⟩

/-- An answered read is a bus call. -/
theorem State.Reads.busOnly (h : s.Reads a w t) : s.BusOnly t := ⟨h.cpu, (State.Move.busRead h).keepsBlock⟩

/-- A write that is made is a bus call. -/
theorem State.Writes.busOnly (h : s.Writes a v t) : s.BusOnly t := ⟨h.cpu, (State.Move.busWrite h).keepsBlock⟩

/-- An answered read keeps memory. -/
theorem State.Reads.mem (h : s.Reads a w t) : t.mem = s.mem := by rw [h.keeps]

/-- A change of memory alone is that of bus calls. -/
theorem State.busOnly_mem (m : Memory) (s : State) : s.BusOnly { s with mem := m } :=
  ⟨rfl, rfl, rfl, rfl, rfl, fun _ _ => rfl⟩

/-- What the stepping CPU keeps after bus calls it keeps over them. -/
theorem State.BusOnly.keepsCpu {ds : List RegNo} {m : Word} (h : s.BusOnly t) (k : KeepsCpu ds m t u) :
    KeepsCpu ds m s u := by
  unfold KeepsCpu State.reg at k ⊢
  rwa [h.1] at k

end

/-! ### Writes that keep the bus -/

/-- The bus is as it was. -/
theorem SameBus.refl (s : State) : SameBus s s := ⟨rfl, rfl, rfl⟩

/-- A register write keeps the bus. -/
theorem SameBus.setReg (i : RegNo) (v : Word) (s : State) : SameBus s (s.setReg i v) := by simp [SameBus]

/-- The pending target is no part of the bus. -/
theorem SameBus.setPendingPC {s t : State} (h : SameBus s t) (target : Word) : SameBus s (t.setPendingPC target) := by
  simpa [SameBus, State.setPendingPC] using h

/-- The pending target is no part of what the stepping CPU keeps. -/
theorem KeepsCpu.setPendingPC {ds : List RegNo} {m : Word} {s t : State} (h : KeepsCpu ds m s t) (target : Word) :
    KeepsCpu ds m s (t.setPendingPC target) := by
  simpa [KeepsCpu, State.setPendingPC, State.reg] using h

/-! ### What breaks no restriction -/

section

variable {f : LsForm} {s s1 : State}

/-- A chain of restrictions answers none exactly when none of them applies. -/
theorem ite_some_eq_none {α : Type} {p : Prop} [Decidable p] {a : α} {rest : Option α} :
    (if p then some a else rest) = none ↔ ¬p ∧ rest = none := by
  split <;> simp [*]

/-- A base that is written back is not r15 (R404, R423). -/
theorem LsForm.base_ne_pc (ht : f.trap s = none) (hw : f.wb = true) : f.rn ≠ 15#4 := by
  rw [LsForm.trap, ite_some_eq_none, ite_some_eq_none] at ht
  obtain ⟨-, hbase, -⟩ := ht
  exact fun h => hbase ⟨hw, h⟩

/-- LDRD and STRD use two registers below r15, neither of them a base that is written back, at an aligned address
(R440). -/
theorem LsForm.double_legal (ht : f.trap s = none) (hk : f.kind = .ldrd ∨ f.kind = .strd) :
    f.rd ≠ 15#4 ∧ f.rd + 1#4 ≠ 15#4 ∧ (f.wb = true → f.rn ≠ f.rd ∧ f.rn ≠ f.rd + 1#4) ∧ (f.addr s).toNat % 4 = 0 := by
  have hpair : ∀ r : RegNo, r.toNat % 2 ≠ 1 → r ≠ 14#4 → r ≠ 15#4 ∧ r + 1#4 ≠ 15#4 := by decide
  have hall : f.rd.toNat % 2 ≠ 1 ∧ f.rd ≠ 14#4 ∧ ¬(f.wb = true ∧ (f.rn = f.rd ∨ f.rn = f.rd + 1#4)) ∧
      (f.addr s).toNat % 8 = 0 := by
    rcases hk with hk | hk
    all_goals
      simp only [LsForm.trap, hk, ite_some_eq_none, -reduceCtorEq, not_not] at ht
      obtain ⟨-, -, -, -, hodd, hlast, -, hbase, haddr, -⟩ := ht
      exact ⟨hodd, hlast, hbase, haddr⟩
  obtain ⟨hodd, hlast, hbase, haddr⟩ := hall
  obtain ⟨hd, hd1⟩ := hpair f.rd hodd hlast
  exact ⟨hd, hd1, fun hw => ⟨fun h => hbase ⟨hw, .inl h⟩, fun h => hbase ⟨hw, .inr h⟩⟩, by omega⟩

/-! ### The write-back of the base -/

/-- The base is written when the form writes back. -/
theorem LsForm.writeBack_eq (f : LsForm) (v : Word) (s : State) :
    s.writeBack f.x f.rn v = if f.wb then s.setReg f.rn v else s := by
  rw [State.writeBack, f.writesBack_eq]

/-- The write-back keeps the bus. -/
theorem SameBus.writeBack (f : LsForm) (v : Word) (s : State) : SameBus s (s.writeBack f.x f.rn v) := by
  rw [f.writeBack_eq]
  split
  · exact .setReg _ _ s
  · exact .refl s

/-- The write-back changes the base alone. -/
theorem Keeps.writeBack (f : LsForm) (v : Word) (s : State) :
    Keeps (if f.wb then [f.rn] else []) 0#32 s (s.writeBack f.x f.rn v) := by
  rw [f.writeBack_eq]
  split
  · exact .setReg _ _ s
  · exact .refl s

/-- The base holds what was written back. -/
theorem LsForm.reg_writeBack (hn : f.rn ≠ 15#4) (hw : f.wb = true) (v : Word) (s : State) :
    (s.writeBack f.x f.rn v).reg f.rn = v := by
  rw [f.writeBack_eq, if_pos hw, State.reg_setReg hn]

/-- What a single transfer leaves but for its bus calls and what it loads: the base written back when the form says so,
and nothing else changed. -/
def LsForm.Based (f : LsForm) (s t : State) : Prop :=
  (f.wb = true → t.reg f.rn = f.offAddr s) ∧ KeepsCpu (if f.wb then [f.rn] else []) 0#32 s t ∧ KeepsBlock s t ∧
  t.cpu.pendingPC = s.cpu.pendingPC

/-- Bus calls and the write-back are what a store does. -/
theorem LsForm.based_writeBack (ht : f.trap s = none) (h : s.BusOnly s1) :
    f.Based s (s1.writeBack f.x f.rn (f.offAddr s)) := by
  obtain ⟨hcpu, hblock, -, hpending⟩ := Keeps.writeBack f (f.offAddr s) s1
  exact ⟨fun hw => f.reg_writeBack (LsForm.base_ne_pc ht hw) hw _ s1, h.keepsCpu hcpu, h.2.trans hblock,
    by rw [hpending, h.1]⟩

/-! ### The register writes of a load -/

/-- The order of the base and the pending target does not matter. -/
theorem LsForm.commitLoad_setPendingPC (f : LsForm) (v target : Word) (s : State) :
    s.commitLoad f.x f.rn v (State.setPendingPC target) = (s.writeBack f.x f.rn v).setPendingPC target := by
  have hcomm : (s.setPendingPC target).setReg f.rn v = (s.setReg f.rn v).setPendingPC target := by
    unfold State.setReg State.setPendingPC
    split
    · rfl
    · simp
  rw [State.commitLoad, f.writeBack_eq, f.writeBack_eq, hcomm]
  cases f.x.p <;> cases f.wb <;> rfl

/-- A load writes what it loads, and the base when the form writes back. -/
theorem Keeps.commitLoad {ds : List RegNo} {write : State → State} (h : ∀ u : State, Keeps ds 0#32 u (write u))
    (f : LsForm) (v : Word) (s : State) :
    Keeps (ds ++ if f.wb then [f.rn] else []) 0#32 s (s.commitLoad f.x f.rn v write) := by
  have hload (u : State) : Keeps (ds ++ if f.wb then [f.rn] else []) 0#32 u (write u) :=
    (h u).mono (fun _ hi => List.mem_append_left _ hi) rfl
  have hbase (u : State) : Keeps (ds ++ if f.wb then [f.rn] else []) 0#32 u (u.writeBack f.x f.rn v) :=
    (Keeps.writeBack f v u).mono (fun _ hi => List.mem_append_right _ hi) rfl
  rw [State.commitLoad]
  cases f.x.p with
  | false => exact (hload s).trans (hbase _)
  | true => exact (hbase s).trans (hload _)

/-- A base that the load itself does not write holds what was written back. -/
theorem LsForm.reg_commitLoad_base {write : State → State} (hn : f.rn ≠ 15#4) (hw : f.wb = true)
    (h : ∀ u : State, (write u).reg f.rn = u.reg f.rn) (v : Word) (s : State) :
    (s.commitLoad f.x f.rn v write).reg f.rn = v := by
  unfold State.commitLoad
  split
  · rw [h, f.reg_writeBack hn hw]
  · exact f.reg_writeBack hn hw v _

/-- A register that is not a written base holds what the load writes to it. -/
theorem LsForm.reg_commitLoad_of_ne {write : State → State} {i : RegNo} {r : Word} (hi : f.wb = true → f.rn ≠ i)
    (h : ∀ u : State, (write u).reg i = r) (v : Word) (s : State) : (s.commitLoad f.x f.rn v write).reg i = r := by
  unfold State.commitLoad
  split
  · exact h _
  · rw [f.writeBack_eq]
    split
    · next hw => rw [State.reg_setReg_ne (hi hw).symm, h]
    · exact h s

/-- The destination of a single load holds the loaded value, but for a post-indexed base, which is written last
(R403). -/
theorem LsForm.reg_commitLoad_dest (hd : f.rd ≠ 15#4) (r v : Word) (s : State) :
    (s.commitLoad f.x f.rn v (State.setReg f.rd r)).reg f.rd = if f.x.p = false ∧ f.rn = f.rd then v else r := by
  have hload (u : State) : (u.setReg f.rd r).reg f.rd = r := State.reg_setReg hd r u
  split
  · next h =>
    obtain ⟨hp, hn⟩ := h
    rw [State.commitLoad, hp, ← hn]
    exact f.reg_writeBack (hn ▸ hd) (by simp [LsForm.wb, hp]) v _
  · next h =>
    cases hp : f.x.p with
    | false => exact f.reg_commitLoad_of_ne (fun _ hn => h ⟨hp, hn⟩) hload v s
    | true => rw [State.commitLoad, hp]; exact hload _

/-- Bus reads and the register writes of a load: the loaded registers and the base, and nothing else. -/
theorem LsForm.commitLoad_frame {ds : List RegNo} {write : State → State} (hw : ∀ u : State, Keeps ds 0#32 u (write u))
    (h : s.BusOnly s1) (hmem : s1.mem = s.mem) (v : Word) :
    let t := s1.commitLoad f.x f.rn v write
    KeepsCpu (ds ++ if f.wb then [f.rn] else []) 0#32 s t ∧ KeepsBlock s t ∧ t.cpu.pendingPC = s.cpu.pendingPC ∧
      (∀ a : Nat, t.mem.read a = s.mem.read a) ∧ t.events = s1.events ∧ t.draws = s1.draws := by
  obtain ⟨hcpu, hblock, hbus, hpending⟩ := Keeps.commitLoad hw f v s1
  obtain ⟨hread, hevents, hdraws⟩ := hbus
  exact ⟨h.keepsCpu hcpu, h.2.trans hblock, by rw [hpending, h.1], fun a => by rw [hread, hmem], hevents, hdraws⟩

end

end Sys2Proof.Machine
end

section
/-! SUPPORT. Single loads and stores whose bus calls are answered (R402, R403, R407, R408, R410 to R417, R425 to R428,
R440 to R442). -/

namespace Sys2Proof.Machine

open Sys2Proof.Config

/-! ### Loads -/

/-- Settles O12: the access gives the value of the lane, and the register writes follow the order of R403. -/
theorem loadResult : Obligations.LoadResult := by
  intro i f s s1 w hf hk hd ht hread v
  have hreads := State.busRead32_done.1 hread
  have hexec : exec i s = .next (s1.commitLoad f.x f.rn (f.offAddr s) (State.setReg f.rd v)) := by
    rw [exec_load hf ht hk fun _ => hd, f.kind.load_loaded hread, Access.finish_done]
  refine ⟨_, hexec, LsForm.reg_commitLoad_dest hd v _ s1, fun hw hne => ?_, ?_⟩
  · exact LsForm.reg_commitLoad_base (LsForm.base_ne_pc ht hw) hw (State.reg_setReg_ne hne v) _ s1
  · exact LsForm.commitLoad_frame (Keeps.setReg f.rd v) hreads.busOnly hreads.mem _

/-- Settles O15: the two reads in order, then the register writes, none of which meets another (R440). -/
theorem loadDouble : Obligations.LoadDouble := by
  intro i f s s1 s2 v0 v1 hf hk ht hread0 hread1
  obtain ⟨hd, hd1, hbase, haligned⟩ := LsForm.double_legal ht (.inl hk)
  have hreads0 := State.busRead32_done.1 hread0
  have hreads1 := State.busRead32_done.1 hread1
  have hne : f.rd ≠ f.rd + 1#4 := by simp
  have hexec : exec i s = .next (s2.commitLoad f.x f.rn (f.offAddr s) fun t =>
      (t.setReg f.rd v0).setReg (f.rd + 1#4) v1) := by
    rw [exec_loadDouble hf ht hk, State.memRead32_eq, alignDown_of_aligned haligned, hread0, Access.finish_done,
      State.memRead32_eq, alignDown_add_four, alignDown_of_aligned haligned, hread1, Access.finish_done]
  have hwrites (u : State) : Keeps [f.rd, f.rd + 1#4] 0#32 u ((u.setReg f.rd v0).setReg (f.rd + 1#4) v1) :=
    ((Keeps.setReg f.rd v0 u).mono (by simp) rfl).trans ((Keeps.setReg (f.rd + 1#4) v1 _).mono (by simp) rfl)
  refine ⟨_, hexec, ?_, ?_, fun hw => ?_, ?_⟩
  · refine LsForm.reg_commitLoad_of_ne (fun hw => (hbase hw).1) (fun u => ?_) _ s2
    rw [State.reg_setReg_ne hne, State.reg_setReg hd]
  · exact LsForm.reg_commitLoad_of_ne (fun hw => (hbase hw).2) (fun u => State.reg_setReg hd1 v1 _) _ s2
  · refine LsForm.reg_commitLoad_base (LsForm.base_ne_pc ht hw) hw (fun u => ?_) _ s2
    rw [State.reg_setReg_ne (hbase hw).2, State.reg_setReg_ne (hbase hw).1]
  · exact LsForm.commitLoad_frame hwrites (hreads0.busOnly.trans hreads1.busOnly) (hreads1.mem.trans hreads0.mem) _

/-! ### LDR of r15 -/

/-- The interworking target halts on an odd value, which is Thumb code, and is the plain one else (R240). -/
theorem State.pcTarget_interwork (r : Word) (s : State) : s.pcTarget .interwork r =
    if r.toNat % 2 = 1 then .error (.unsupported (.thumbState r)) else s.pcTarget .plain r := by
  have hodd : bit 0 r = true ↔ r.toNat % 2 = 1 := by
    rw [bit, BitVec.getLsbD, Nat.testBit_zero, decide_eq_true_eq]
  simp only [State.pcTarget, hodd, true_and, reduceCtorEq, false_and, if_false]

/-- A loaded word that is not Thumb code for `v5` is checked as a plain target (R240, R407). -/
theorem State.loadedTarget_plain {w : Word} {s : State} (h : ¬(s.variant = .v5 ∧ w.toNat % 2 = 1)) :
    s.loadedTarget w = s.pcTarget .plain w :=
  (if_congr Iff.rfl rfl (if_neg h)).trans (s.pcTarget_plain w).symm

/-- The checks of a load of r15 (R240, R407): interworking on `v5`, plain on `v4`. -/
theorem State.pcTarget_load (w : Word) (s : State) : s.pcTarget (loadPcKind s.variant) w = s.loadedTarget w := by
  cases hv : s.variant with
  | v4 => exact (State.loadedTarget_plain fun h => nomatch hv.symm.trans h.1).symm
  | v5 =>
    rw [loadPcKind, State.pcTarget_interwork]
    split
    · next hodd => rw [State.loadedTarget, if_neg (by omega), if_pos ⟨hv, hodd⟩]
    · next heven => exact (State.loadedTarget_plain fun h => heven h.2).symm

/-- LDR of r15 from an unaligned address raises before its read (R407). -/
theorem exec_loadPc_unaligned {i : Instr} {f : LsForm} {s : State} (hf : lsForm i = some f) (ht : f.trap s = none)
    (hk : f.kind = .ldr) (hd : f.rd = 15#4) (ha : (f.addr s).toNat % 4 ≠ 0) :
    exec i s = .next (s.halt (.unpredictable .misalignedPCLoad)) := by
  have hindex : firstApplying (indexChecks f.x f.rn f.o) = none := by
    rw [← ht, ← f.firstApplying_checks s, LsForm.checks, hk]
  have hlast : firstApplying (indexChecks f.x f.rn f.o ++
      [(bits 0 2 (s.transferAddress f.x f.rn f.o) != 0#2, .misalignedPCLoad)]) = some .misalignedPCLoad := by
    rw [firstApplying_append_of_none hindex, f.transferAddress_eq, bits_zero_bne]
    exact if_pos (decide_eq_true ha)
  rw [exec_eq_run hf, LsForm.run, hk]
  exact (if_pos hd).trans (State.guarded_raise hlast)

/-- Settles O13: an unaligned address raises before the read; else the loaded word is checked, then the base and the
target are written. -/
theorem loadProgramCounter : Obligations.LoadProgramCounter := by
  intro i f s hf hk hd ht
  refine ⟨fun ha => ?_, fun w s1 ha hread => ?_⟩
  · exact exec_loadPc_unaligned hf ht hk hd ha
  · have hreads := State.busRead32_done.1 hread
    have htarget : s1.pcTarget (loadPcKind s.variant) w = s.loadedTarget w := by
      obtain ⟨-, -, hparams, -⟩ := hreads.busOnly.2
      rw [← State.pcTarget_load, State.pcTarget, State.pcTarget, hparams]
    have hexec : exec i s = match s.loadedTarget w with
        | .error why => .next (s1.halt why)
        | .ok target => .next ((s1.writeBack f.x f.rn (f.offAddr s)).setPendingPC target) := by
      rw [exec_loadPc hf ht hk hd ha, State.memRead32_eq, alignDown_of_aligned ha, hread, Access.finish_done, htarget]
      cases s.loadedTarget w with
      | error why => rfl
      | ok target => exact congrArg Host.Outcome.next (f.commitLoad_setPendingPC _ target s1)
    cases hload : s.loadedTarget w with
    | error why => rw [hload] at hexec; exact hexec
    | ok target =>
      rw [hload] at hexec
      obtain ⟨hbase, hcpu, hblock, -⟩ := LsForm.based_writeBack ht hreads.busOnly
      obtain ⟨hmem, hevents, hdraws⟩ := (SameBus.writeBack f (f.offAddr s) s1).setPendingPC target
      refine ⟨_, hexec, State.pendingPC_setPendingPC _ _, fun hw => ?_, hcpu.setPendingPC target,
        hblock.trans (.setCpu _ _), fun a => ?_, hevents, hdraws⟩
      · rw [State.reg_setPendingPC]; exact hbase hw
      · rw [hmem, hreads.mem]

/-! ### Stores -/

/-- Settles O16: the two writes in order, then the write-back; to raw memory each write is made in its place. -/
theorem storeDouble : Obligations.StoreDouble := by
  intro i f s hf hk ht rest
  obtain ⟨-, -, -, haligned⟩ := LsForm.double_legal ht (.inr hk)
  have hstore (s1 s2 : State) (hw0 : s.Writes (f.addr s) (s.reg f.rd) s1)
      (hw1 : s1.Writes (f.addr s + 4#32) (s.reg (f.rd + 1#4)) s2) :
      ∃ t, exec i s = .next t ∧ rest t ∧ SameBus s2 t := by
    have hexec : exec i s = .next (s2.writeBack f.x f.rn (f.offAddr s)) := by
      rw [exec_storeDouble hf ht hk, State.memWrite32_eq, alignDown_of_aligned haligned, State.busWrite32_done.2 hw0,
        Access.finish_done, State.memWrite32_eq, alignDown_add_four, alignDown_of_aligned haligned,
        State.busWrite32_done.2 hw1, Access.finish_done]
    exact ⟨_, hexec, LsForm.based_writeBack ht (hw0.busOnly.trans hw1.busOnly), SameBus.writeBack f _ s2⟩
  refine ⟨fun p q hm hp hq => ?_, hstore⟩
  obtain ⟨-, hp⟩ := hp
  obtain ⟨-, hq⟩ := hq
  rw [alignDown_of_aligned haligned] at hp
  rw [alignDown_add_four, alignDown_of_aligned haligned] at hq
  obtain ⟨t, hexec, hrest, hmem, hevents, hdraws⟩ := hstore _ _ (State.busWrite32_done.1 (State.busWrite32_raw hp))
    (State.busWrite32_done.1 (State.busWrite32_raw (s := { s with mem := s.mem.writeWord p (s.reg f.rd) }) hq))
  have hwf := Memory.wf_writeWord p (s.reg f.rd) hm
  refine ⟨t, hexec, hrest, ?_, fun a => ?_, hevents, hdraws⟩
  · rw [hmem]; exact Memory.wf_writeWord q _ hwf
  · rw [hmem, Memory.read_writeWord_eq q _ hwf, Memory.read_writeWord_eq p _ hm]

/-- Settles O14: the stored word by its bytes, then the write-back; to raw memory the word is written in its place. -/
theorem storeResult : Obligations.StoreResult := by
  intro i f s hf hk ht a lane rest
  have hstore {s1 : State} (hbus : s.BusOnly s1) (hdone : f.kind.store (s.reg f.rd) (f.addr s) s = .done () s1) :
      ∃ t, exec i s = .next t ∧ rest t ∧ SameBus s1 t := by
    have hexec : exec i s = .next (s1.writeBack f.x f.rn (f.offAddr s)) := by
      rw [exec_store hf ht hk, hdone, Access.finish_done]
    exact ⟨_, hexec, LsForm.based_writeBack ht hbus, SameBus.writeBack f _ s1⟩
  refine ⟨fun p hm hraw => ?_, fun s1 hword hw => ?_, fun w v s1 s2 hsub hr hv hw => ?_⟩
  · obtain ⟨t, hexec, hrest, hmem, hevents, hdraws⟩ := hstore (s.busOnly_mem _) (LsKind.store_raw hk hraw)
    refine ⟨t, hexec, hrest, ?_, fun n hn => ?_, fun b hb => ?_, hevents, hdraws⟩
    · rw [hmem]; exact Memory.wf_writeWord p _ hm
    · rw [hmem, Memory.read_writeWord_byte p _ hm hn, ← Memory.byteOf_readWord s.mem p hn]
      exact LsKind.byteOf_storedWord _ _ _ _ _ hn
    · rw [hmem]; exact Memory.read_writeWord_ne hb _ _
  · refine hstore hw.busOnly ?_
    rw [hword]
    exact LsKind.store_word_done hw
  · have hv : v = f.kind.storedWord s.endian (f.addr s) (s.reg f.rd) w :=
      eq_of_byteOf_eq fun n hn => (hv n hn).trans (LsKind.byteOf_storedWord _ _ _ _ _ hn).symm
    have hk : f.kind ∈ [LsKind.strb, .strh] := (List.mem_cons.1 hk).resolve_left hsub
    exact hstore (hr.busOnly.trans hw.busOnly) (LsKind.store_lane_done hk hr (hv ▸ hw))

end Sys2Proof.Machine
end

section
/-! SUPPORT. SWP and SWPB whose bus calls are answered (R450, R451). -/

namespace Sys2Proof.Machine

open Sys2Proof.Config

section

variable {rn rd rm : RegNo} {s : State}

/-- A swap that names r15 halts (R450). -/
theorem State.swapForm_pc (h : rn = 15#4 ∨ rd = 15#4 ∨ rm = 15#4) (load : Word → State → Access Word)
    (store : Word → State → Access Unit) :
    s.swapForm rn rd rm load store = .next (s.halt (.unpredictable .swapPC)) :=
  State.guarded_raise (by simp [swapChecks, firstApplying, or_assoc, h])

/-- A swap whose base is another of its registers halts (R450). -/
theorem State.swapForm_overlap (hn : rn ≠ 15#4) (hd : rd ≠ 15#4) (hm : rm ≠ 15#4) (h : rn = rm ∨ rn = rd)
    (load : Word → State → Access Word) (store : Word → State → Access Unit) :
    s.swapForm rn rd rm load store = .next (s.halt (.unpredictable .swapOverlap)) :=
  State.guarded_raise (by simp [swapChecks, firstApplying, hn, hd, hm, h])

/-- What a swap leaves but for its bus calls: the loaded value in Rd, and nothing else changed. -/
def Swapped (rd : RegNo) (v : Word) (s t : State) : Prop :=
  t.reg rd = v ∧ KeepsCpu [rd] 0#32 s t ∧ KeepsBlock s t ∧ t.cpu.pendingPC = s.cpu.pendingPC

/-- A swap within R450 whose load and store are done completes with the register write. -/
theorem State.swapForm_done {load : Word → State → Access Word} {store : Word → State → Access Unit} {v : Word}
    {s1 s2 : State} (hn : rn ≠ 15#4) (hd : rd ≠ 15#4) (hm : rm ≠ 15#4) (hnm : rn ≠ rm) (hnd : rn ≠ rd)
    (hbus : s.BusOnly s2) (hload : load (s.reg rn) s = .done v s1) (hstore : store (s.reg rn) s1 = .done () s2) :
    ∃ t, s.swapForm rn rd rm load store = .next t ∧ Swapped rd v s t ∧ SameBus s2 t := by
  obtain ⟨hcpu, hblock, -, hpending⟩ := Keeps.setReg rd v s2
  refine ⟨s2.setReg rd v, ?_, ⟨State.reg_setReg hd v s2, hbus.keepsCpu hcpu, hbus.2.trans hblock, ?_⟩, .setReg rd v s2⟩
  · rw [State.swapForm_pass hn hd hm hnm hnd, hload, Access.finish_done, hstore, Access.finish_done]
  · rw [hpending, hbus.1]

end

/-- Settles O18: the restrictions, then the load and the store of each swap at the address of the base. -/
theorem swap : Obligations.Swap := by
  intro c rn rd rm s a both rest frame
  have hswp := exec_swp c rn rd rm s
  have hswpb := exec_swpb c rn rd rm s
  refine ⟨fun h => ⟨hswp.trans (State.swapForm_pc h _ _), hswpb.trans (State.swapForm_pc h _ _)⟩, fun hn hd hm h =>
    ⟨hswp.trans (State.swapForm_overlap hn hd hm h _ _), hswpb.trans (State.swapForm_overlap hn hd hm h _ _)⟩,
    fun hn hd hm hnm hnd => ?_⟩
  refine ⟨fun p hwf hraw => ?_, fun w s1 s2 hr hw => ?_, fun w w2 v s1 s2 s3 hr hr2 hv hw => ?_⟩
  · have hread := State.busRead32_raw hraw.1
    have hframe (v : Word) {t : State} (hsame : SameBus { s with mem := s.mem.writeWord p v } t) (ht : rest t) :
        frame t p := by
      obtain ⟨hmem, hevents, hdraws⟩ := hsame
      refine ⟨fun b hb => ?_, ?_, ht, hevents, hdraws⟩
      · rw [hmem]; exact Memory.read_writeWord_ne hb v s.mem
      · rw [hmem]; exact Memory.wf_writeWord p v hwf
    refine ⟨?_, ?_⟩
    · obtain ⟨t, hexec, ⟨hreg, hrest⟩, hsame⟩ := State.swapForm_done hn hd hm hnm hnd (s.busOnly_mem _)
        (LsKind.ldr.load_loaded hread) (LsKind.store_raw (k := .str) (x := s.reg rm) (by simp) hraw)
      refine ⟨t, hexec, hreg, ?_, hframe _ hsame hrest⟩
      rw [hsame.1]
      exact Memory.readWord_writeWord p _ hwf
    · obtain ⟨t, hexec, ⟨hreg, hrest⟩, hsame⟩ := State.swapForm_done hn hd hm hnm hnd (s.busOnly_mem _)
        (LsKind.ldrb.load_loaded hread) (LsKind.store_raw (k := .strb) (x := s.reg rm) (by simp) hraw)
      refine ⟨t, hexec, ?_, fun n hn => ?_, hframe _ hsame hrest⟩
      · rw [hreg, LsKind.loaded, Memory.byteOf_readWord _ _ (laneOf_lt _ _)]
      · rw [hsame.1, Memory.read_writeWord_byte p _ hwf hn, byteOf_storedByte _ _ _ _ hn, Memory.byteOf_readWord _ _ hn]
  · obtain ⟨t, hexec, ⟨hreg, hrest⟩, hsame⟩ := State.swapForm_done hn hd hm hnm hnd (hr.busOnly.trans hw.busOnly)
      (LsKind.ldr.load_loaded (State.busRead32_done.2 hr)) (LsKind.store_word_done hw)
    exact ⟨t, hexec, hreg, hrest, hsame⟩
  · have hendian : s1.endian = s.endian := by rw [State.endian, State.endian, hr.cpu]
    have hstored : v = LsKind.strb.storedWord s1.endian a (s.reg rm) w2 := by
      rw [hendian]
      exact eq_of_byteOf_eq fun n hn => (hv n hn).trans (byteOf_storedByte _ _ _ _ hn).symm
    obtain ⟨t, hexec, ⟨hreg, hrest⟩, hsame⟩ := State.swapForm_done hn hd hm hnm hnd
      ((hr.busOnly.trans hr2.busOnly).trans hw.busOnly) (LsKind.ldrb.load_loaded (State.busRead32_done.2 hr))
      (LsKind.store_lane_done (k := .strb) (by simp) hr2 (hstored ▸ hw))
    exact ⟨t, hexec, hreg, hrest, hsame⟩

end Sys2Proof.Machine
end

section
/-! SUPPORT. The registers of a block transfer (R471, R473, R477): the listed registers and their slots, what writes of
listed registers in order leave in one register, and the register writes of the block loads. -/

namespace Sys2Proof.Machine

open Sys2Proof.Config

/-! ### Slots of a list (R471) -/

/-- There is one more slot below the next register when this one is listed. -/
theorem slotOf_succ (list : BitVec 16) (i : Nat) :
    slotOf list (i + 1) = slotOf list i + if list.getLsbD i then 1 else 0 := by
  rw [slotOf, slotOf, List.range_succ, List.filter_append, List.length_append, List.filter_singleton]
  cases list.getLsbD i <;> rfl

/-- A list names as many registers as it has slots. -/
theorem length_listedRegs (list : BitVec 16) : (listedRegs list).length = listCount list := by
  rw [listedRegs, List.length_map]
  rfl

/-- Every register is listed once. -/
theorem nodup_listedRegs (list : BitVec 16) : (listedRegs list).Nodup := by
  refine (List.nodup_range.filter _).map_on fun i hi j hj h => ?_
  have hi := List.mem_range.1 (List.mem_of_mem_filter hi)
  have hj := List.mem_range.1 (List.mem_of_mem_filter hj)
  have hnum := congrArg BitVec.toNat h
  rwa [BitVec.toNat_ofNat, BitVec.toNat_ofNat, Nat.mod_eq_of_lt hi, Nat.mod_eq_of_lt hj] at hnum

/-- The listed registers are those whose bit is set. -/
theorem mem_listedRegs {list : BitVec 16} {n : RegNo} : n ∈ listedRegs list ↔ list.getLsbD n.toNat = true := by
  simp only [listedRegs, List.mem_map, List.mem_filter, List.mem_range]
  constructor
  · rintro ⟨i, ⟨hi, hbit⟩, rfl⟩
    rwa [BitVec.toNat_ofNat, Nat.mod_eq_of_lt hi]
  · exact fun hbit => ⟨n.toNat, ⟨n.isLt, hbit⟩, by simp⟩

/-- A listed register stands in its slot. -/
theorem listedRegs_slotOf {list : BitVec 16} {n : RegNo} (h : list.getLsbD n.toNat = true) :
    (listedRegs list)[slotOf list n.toNat]? = some n := by
  have hsplit : List.range 16 = List.range n.toNat ++ (List.range (15 - n.toNat + 1)).map (n.toNat + ·) := by
    rw [← List.range_add]
    congr 1
    have := n.isLt
    omega
  rw [listedRegs, hsplit, List.filter_append, List.map_append, List.getElem?_append_right (by simp [slotOf]),
    List.range_succ_eq_map]
  simp [slotOf, h]

/-- The register in a slot is the listed register with that slot. -/
theorem listedRegs_getElem? {list : BitVec 16} {k : Nat} {n : RegNo} :
    (listedRegs list)[k]? = some n ↔ list.getLsbD n.toNat = true ∧ slotOf list n.toNat = k := by
  refine ⟨fun h => ?_, fun ⟨h, hk⟩ => hk ▸ listedRegs_slotOf h⟩
  have hlisted := mem_listedRegs.1 (List.mem_of_getElem? h)
  obtain ⟨hlt, -⟩ := List.getElem?_eq_some_iff.1 h
  exact ⟨hlisted, ((List.getElem?_inj hlt (nodup_listedRegs list)).1 (h.trans (listedRegs_slotOf hlisted).symm)).symm⟩

/-- r15, when it is listed, has the last slot. -/
theorem listCount_of_pc {list : BitVec 16} (h : list.getLsbD 15 = true) : listCount list = slotOf list 15 + 1 := by
  rw [listCount, slotOf_succ, if_pos h]

/-- The word loaded for r15 is the one in its slot (R473). -/
theorem lastWord_eq {list : BitVec 16} {ws : List Word} (h : list.getLsbD 15 = true) (hlen : ws.length = listCount list) :
    lastWord ws = ws.getD (slotOf list 15) 0#32 := by
  rw [lastWord, List.getLast?_eq_getElem?, hlen, listCount_of_pc h, Nat.add_sub_cancel, List.getD_eq_getElem?_getD]

/-- The words of the first `k` slots, one by one, are those of the first `k` listed registers. -/
theorem eq_take_map_listedRegs {list : BitVec 16} {k : Nat} {vs : List Word} {f : RegNo → Word} (hlen : vs.length = k)
    (hk : k ≤ listCount list)
    (h : ∀ n : RegNo, list.getLsbD n.toNat = true → slotOf list n.toNat < k → vs[slotOf list n.toNat]? = some (f n)) :
    vs = ((listedRegs list).map f).take k := by
  refine List.ext_getElem? fun j => ?_
  by_cases hj : j < k
  · have hreg := List.getElem?_eq_getElem (l := listedRegs list) (i := j) (by rw [length_listedRegs]; omega)
    obtain ⟨hlisted, hslot⟩ := listedRegs_getElem?.1 hreg
    rw [List.getElem?_take_of_lt hj, List.getElem?_map, hreg]
    have hword := h _ hlisted (by omega)
    rwa [hslot] at hword
  · rw [List.getElem?_eq_none (by omega), List.getElem?_eq_none (by simp; omega)]

/-! ### Writes in order (R473, R477) -/

/-- The words `vs` written to the registers `rs`, in order. -/
def State.writeEach (write : RegNo → Word → State → State) (rs : List RegNo) (vs : List Word) (s : State) : State :=
  (rs.zip vs).foldl (fun t p => write p.1 p.2 t) s

/-- The writes of a block load are writes in order. -/
theorem State.setRegs_eq (rs : List RegNo) (vs : List Word) (s : State) :
    s.setRegs rs vs = s.writeEach State.setReg rs vs := by
  induction rs generalizing vs s with
  | nil => rfl
  | cons r rs ih =>
    cases vs with
    | nil => rfl
    | cons v vs => exact ih vs _

/-- The writes of a block load of user registers are writes in order. -/
theorem State.setUserRegs_eq (rs : List RegNo) (vs : List Word) (s : State) :
    s.setUserRegs rs vs = s.writeEach State.setUserReg rs vs := by
  induction rs generalizing vs s with
  | nil => rfl
  | cons r rs ih =>
    cases vs with
    | nil => rfl
    | cons v vs => exact ih vs _

/-- What each write of a listed register keeps, all of them keep. -/
theorem State.writeEach_keeps {write : RegNo → Word → State → State} {P : State → Prop} {rs : List RegNo}
    (hwrite : ∀ i ∈ rs, ∀ v t, P t → P (write i v t)) (vs : List Word) {s : State} (hs : P s) :
    P (s.writeEach write rs vs) := by
  induction rs generalizing vs s with
  | nil => exact hs
  | cons r rs ih =>
    cases vs with
    | nil => exact hs
    | cons v vs =>
      exact ih (fun i hi => hwrite i (List.mem_cons_of_mem _ hi)) vs (hwrite r List.mem_cons_self v s hs)

section

variable {write : RegNo → Word → State → State} {get : State → Word} {n : RegNo}
  (hsame : ∀ v t, get (write n v t) = v) (hother : ∀ i, i ≠ n → ∀ v t, get (write i v t) = get t)

include hother in
/-- A register that is not listed keeps its value. -/
theorem State.get_writeEach_of_notMem {rs : List RegNo} (hn : n ∉ rs) (vs : List Word) (s : State) :
    get (s.writeEach write rs vs) = get s :=
  State.writeEach_keeps (P := fun t => get t = get s)
    (fun i hi v t ht => (hother i (ne_of_mem_of_not_mem hi hn) v t).trans ht) vs rfl

include hsame hother

/-- A register that is listed once gets the word of its place in the list. -/
theorem State.get_writeEach_of_getElem? {rs : List RegNo} (hrs : rs.Nodup) {k : Nat} (hn : rs[k]? = some n)
    {vs : List Word} {v : Word} (hv : vs[k]? = some v) (s : State) : get (s.writeEach write rs vs) = v := by
  induction rs generalizing k vs s with
  | nil => cases hn
  | cons r rs ih =>
    obtain ⟨hr, hrs⟩ := List.nodup_cons.1 hrs
    cases vs with
    | nil => cases hv
    | cons v' vs =>
      cases k with
      | zero =>
        cases hn
        cases hv
        exact (State.get_writeEach_of_notMem hother hr vs _).trans (hsame v s)
      | succ k => exact ih hrs hn hv _

/-- After a block of words was written to the registers of a list, a listed register has the word of its slot, and another
has what it had. -/
theorem State.get_writeEach_listedRegs {list : BitVec 16} {ws : List Word} (hlen : ws.length = listCount list)
    (s : State) : get (s.writeEach write (listedRegs list) ws) =
      if list.getLsbD n.toNat then ws.getD (slotOf list n.toNat) 0#32 else get s := by
  split
  · next h =>
    have hslot := listedRegs_slotOf h
    obtain ⟨hlt, -⟩ := List.getElem?_eq_some_iff.1 hslot
    rw [length_listedRegs, ← hlen] at hlt
    refine State.get_writeEach_of_getElem? hsame hother (nodup_listedRegs list) hslot ?_ s
    rw [List.getD_eq_getElem _ _ hlt, List.getElem?_eq_getElem hlt]
  · next h => exact State.get_writeEach_of_notMem hother (mt mem_listedRegs.1 h) ws s

end

/-! ### The writes of LDM (R473, R478) -/

/-- Nothing but registers below r15 of the live array changed. -/
def State.RegsOnly (s t : State) : Prop := t = s.setCpu { s.cpu with r := t.cpu.r } ∧ t.reg 15#4 = s.reg 15#4

/-- No register changed. -/
theorem State.RegsOnly.refl (s : State) : s.RegsOnly s := ⟨(State.setCpu_self s).symm, rfl⟩

/-- One more register written. -/
theorem State.RegsOnly.setReg {s t : State} (h : s.RegsOnly t) (i : RegNo) (v : Word) : s.RegsOnly (t.setReg i v) := by
  obtain ⟨ht, hpc⟩ := h
  refine ⟨?_, (State.reg15_setReg i v t).trans hpc⟩
  unfold State.setReg
  split
  · exact ht
  · rw [ht]
    simp

/-- The register writes of a block load are of registers below r15. -/
theorem State.RegsOnly.blockCommit (w : Bool) (rn : RegNo) (v : Word) (list : BitVec 16) (vs : List Word) (s : State) :
    s.RegsOnly (s.blockCommit w rn v list vs) := by
  rw [State.blockCommit, State.setRegs_eq]
  refine State.writeEach_keeps (fun i _ v _ ht => ht.setReg i v) vs ?_
  unfold State.blockWriteBack
  split
  · exact (State.RegsOnly.refl s).setReg rn v
  · exact .refl s

/-- A register after the register writes of a block load: the base is written first. -/
theorem State.reg_blockCommit {list : BitVec 16} {ws : List Word} (hlen : ws.length = listCount list) {n : RegNo}
    (hn : n ≠ 15#4) (w : Bool) (rn : RegNo) (v : Word) (s : State) : (s.blockCommit w rn v list ws).reg n =
      if list.getLsbD n.toNat then ws.getD (slotOf list n.toNat) 0#32 else if w ∧ n = rn then v else s.reg n := by
  have hbase : (s.blockWriteBack w rn v).reg n = if w ∧ n = rn then v else s.reg n := by
    unfold State.blockWriteBack
    by_cases hrn : n = rn
    · subst hrn
      cases w <;> simp [State.reg_setReg hn]
    · cases w <;> simp [hrn, State.reg_setReg_ne hrn]
  rw [State.blockCommit, State.setRegs_eq, ← hbase]
  exact State.get_writeEach_listedRegs (get := State.reg n) (fun v t => State.reg_setReg hn v t)
    (fun i hi v t => State.reg_setReg_ne hi.symm v t) hlen _

/-- A register below r15 of the live array. -/
theorem State.reg_ofNat (n : Fin 15) (s : State) : s.reg (BitVec.ofNat 4 n.val) = s.cpu.r[n.val] := by
  simp only [State.reg, BitVec.toNat_ofNat]
  congr 1
  omega

section

variable {s t : State} (h : s.RegsOnly t)
include h

/-- The stepping CPU after register writes. -/
theorem State.RegsOnly.cpu : t.cpu = { s.cpu with r := t.cpu.r } :=
  (congrArg State.cpu h.1).trans (State.cpu_setCpu _ s)

/-- The view of a mode after register writes: the live registers where it shares the slot with the current mode. -/
theorem State.RegsOnly.view (m : BitVec 5) (n : Fin 15) : t.cpu.view m n =
    if physBank m n.val = physBank s.mode n.val then t.reg (BitVec.ofNat 4 n.val) else s.cpu.view m n := by
  have hmode : t.mode = s.mode := by rw [State.mode, h.cpu]; rfl
  have hbanks : t.cpu.banks = s.cpu.banks := by rw [h.cpu]
  rw [State.reg_ofNat, Cpu.view, hbanks, ← State.mode, hmode]
  exact ite_congr rfl (fun _ => rfl) fun hne => (if_neg hne).symm

/-- An update of the stepping CPU stands over the register writes before it. -/
theorem State.RegsOnly.setCpu (c : Cpu) : t.setCpu c = s.setCpu c :=
  (congrArg (State.setCpu c) h.1).trans (State.setCpu_setCpu _ c s)

/-- Register writes keep the SPSR of every mode. -/
theorem State.RegsOnly.spsrView (m : BitVec 5) : t.cpu.spsrView m = s.cpu.spsrView m := by
  rw [h.cpu]
  rfl

/-- A target of the program counter set after register writes. -/
theorem State.RegsOnly.setPendingPC (target : Word) :
    t.setPendingPC target = s.setCpu { s.cpu with r := t.cpu.r, pendingPC := some target } :=
  (congrArg (State.setPendingPC target) h.1).trans (by simp [State.setPendingPC])

end

/-- The view of a mode after the register writes of a block load: the writes where it shares the slot with the current
mode. -/
theorem State.view_blockCommit {list : BitVec 16} {ws : List Word} (hlen : ws.length = listCount list) (w : Bool)
    (rn : RegNo) (v : Word) (m : BitVec 5) (n : Fin 15) (s : State) : (s.blockCommit w rn v list ws).cpu.view m n =
      if physBank m n.val = physBank s.mode n.val then
        if list.getLsbD n.val then ws.getD (slotOf list n.val) 0#32
        else if w ∧ n.val = rn.toNat then v else s.cpu.view m n
      else s.cpu.view m n := by
  have hnum : (BitVec.ofNat 4 n.val).toNat = n.val := by rw [BitVec.toNat_ofNat]; omega
  have hrn : BitVec.ofNat 4 n.val = rn ↔ n.val = rn.toNat := by rw [← BitVec.toNat_inj, hnum]
  have hpc : BitVec.ofNat 4 n.val ≠ 15#4 := fun h => n.isLt.ne (hnum.symm.trans (congrArg BitVec.toNat h))
  rw [(State.RegsOnly.blockCommit w rn v list ws s).view, State.reg_blockCommit hlen hpc, hnum, State.reg_ofNat]
  split
  · next hslot =>
    have hlive : s.cpu.view m n = s.cpu.r[n.val] := if_pos hslot
    simp only [hrn, hlive]
  · rfl

/-! ### The writes of LDM of user registers (R476, R477) -/

section

variable {i : RegNo} {m : BitVec 5} {n : Fin 15}

/-- A write of a USR-mode register is read back in every mode that uses its slot. -/
theorem State.view_setUserReg_same (hn : n.val = i.toNat) (hm : physBank m n.val = .usr) (v : Word) (s : State) :
    (s.setUserReg i v).cpu.view m n = v := by
  have hlt : i.toNat < 15 := hn ▸ n.isLt
  obtain rfl : n = ⟨i.toNat, hlt⟩ := Fin.ext hn
  rw [State.setUserReg, dif_pos hlt]
  by_cases hlive : physBank s.mode i.toNat = .usr
  · have hne : i ≠ 15#4 := by rintro rfl; exact absurd hlt (by decide)
    rw [if_pos hlive, Cpu.view, State.setReg_cpsr]
    exact (if_pos (hm.trans hlive.symm)).trans (State.reg_setReg hne v s)
  · rw [if_neg hlive, State.cpu_setCpu]
    refine (if_neg fun h => hlive (h.symm.trans hm)).trans ?_
    rw [Banks.read, hm]
    exact Vector.getElem_set_self _

/-- A write of a USR-mode register leaves every other register of every mode. -/
theorem State.view_setUserReg_ne (h : n.val = i.toNat → physBank m n.val ≠ .usr) (v : Word) (s : State) :
    (s.setUserReg i v).cpu.view m n = s.cpu.view m n := by
  unfold State.setUserReg
  split
  case isFalse => rfl
  case isTrue hlt =>
    split
    · next hlive =>
      rw [Cpu.view, State.setReg_cpsr, State.setReg_banks]
      refine ite_congr rfl (fun hslot => ?_) fun _ => rfl
      have hn : n.val ≠ i.toNat := fun hn => h hn (hslot.trans (hn ▸ hlive))
      rw [← State.reg_ofNat, ← State.reg_ofNat]
      exact State.reg_setReg_ne (by rintro rfl; simp at hn; omega) v s
    · next hlive =>
      rw [State.cpu_setCpu]
      refine ite_congr rfl (fun _ => rfl) fun _ => ?_
      unfold Banks.read
      cases hm : physBank m n.val with
      | usr => exact Vector.getElem_set_ne hlt n.isLt fun hn => h hn.symm hm
      | fiq | irq | svc | abt | und => rfl

end

/-- Nothing but registers below r15, of the live array and of the bank of USR mode, changed. -/
def State.UserRegsOnly (s t : State) : Prop :=
  t = s.setCpu { s.cpu with
    r := t.cpu.r, banks := { s.cpu.banks with usr := { s.cpu.banks.usr with r := t.cpu.banks.usr.r } } } ∧
  t.reg 15#4 = s.reg 15#4

/-- One more USR-mode register written. -/
theorem State.UserRegsOnly.setUserReg {s t : State} (h : s.UserRegsOnly t) (i : RegNo) (v : Word) :
    s.UserRegsOnly (t.setUserReg i v) := by
  obtain ⟨ht, hpc⟩ := h
  unfold State.setUserReg
  split
  · split
    · refine ⟨?_, (State.reg15_setReg i v t).trans hpc⟩
      unfold State.setReg
      split
      · exact ht
      · rw [ht]
        simp
    · refine ⟨?_, ?_⟩
      · rw [ht]
        simp
      · rw [← hpc, State.reg, State.cpu_setCpu]
        rfl
  · exact ⟨ht, hpc⟩

/-- The writes of LDM of user registers are of registers below r15. -/
theorem State.UserRegsOnly.setUserRegs (rs : List RegNo) (vs : List Word) (s : State) :
    s.UserRegsOnly (s.setUserRegs rs vs) := by
  rw [State.setUserRegs_eq]
  exact State.writeEach_keeps (fun i _ v _ ht => ht.setUserReg i v) vs ⟨(State.setCpu_self s).symm, rfl⟩

/-- The view of a mode after the writes of LDM of user registers. -/
theorem State.view_setUserRegs {list : BitVec 16} {ws : List Word} (hlen : ws.length = listCount list) (m : BitVec 5)
    (n : Fin 15) (s : State) : (s.setUserRegs (listedRegs list) ws).cpu.view m n =
      if list.getLsbD n.val = true ∧ physBank m n.val = .usr then ws.getD (slotOf list n.val) 0#32
      else s.cpu.view m n := by
  have hnum : (BitVec.ofNat 4 n.val).toNat = n.val := by rw [BitVec.toNat_ofNat]; omega
  rw [State.setUserRegs_eq]
  by_cases hm : physBank m n.val = .usr
  · have hview := State.get_writeEach_listedRegs (write := State.setUserReg) (get := fun t => t.cpu.view m n)
      (n := BitVec.ofNat 4 n.val) (fun v t => State.view_setUserReg_same hnum.symm hm v t)
      (fun i hi v t => State.view_setUserReg_ne (fun hn => absurd (BitVec.eq_of_toNat_eq (hnum.trans hn)).symm hi) v t)
      hlen s
    rw [hnum] at hview
    simpa only [hm, and_true] using hview
  · rw [if_neg fun h => hm h.2]
    exact State.writeEach_keeps (P := fun t => t.cpu.view m n = s.cpu.view m n)
      (fun i _ v t ht => (State.view_setUserReg_ne (fun _ => hm) v t).trans ht) ws rfl

end Sys2Proof.Machine
end

section
/-! SUPPORT. The bus calls of a block transfer (R107, R471, R474, R480): the calls before the one that faults, what a run of
calls keeps, and a block of words stored to raw memory. -/

namespace Sys2Proof.Machine

open Sys2Proof.Config

/-! ### Runs of calls -/

/-- As many words are read as there are addresses. -/
theorem State.ReadsAll.length {as ws : List Word} {s t : State} (h : s.ReadsAll as ws t) : ws.length = as.length := by
  induction as generalizing ws s with
  | nil => rw [h.1]
  | cons a as ih =>
    obtain ⟨w, rest, s1, rfl, -, h2⟩ := h
    simp [ih h2]

/-- As many words are written as there are addresses. -/
theorem State.WritesAll.length {as vs : List Word} {s t : State} (h : s.WritesAll as vs t) : vs.length = as.length := by
  induction as generalizing vs s with
  | nil => rw [h.1]
  | cons a as ih =>
    obtain ⟨v, rest, s1, rfl, -, h2⟩ := h
    simp [ih h2]

/-- A block of `n` slots has `n` addresses. -/
theorem length_wordAddrs (n : Nat) (a : Word) : (wordAddrs n a).length = n := by simp [wordAddrs]

/-- Answered reads are bus calls. -/
theorem State.ReadsAll.busOnly {as ws : List Word} {s t : State} (h : s.ReadsAll as ws t) : s.BusOnly t := by
  rw [h.keeps]
  exact ⟨rfl, rfl, rfl, rfl, rfl, fun _ _ => rfl⟩

/-- Answered reads keep memory. -/
theorem State.ReadsAll.mem {as ws : List Word} {s t : State} (h : s.ReadsAll as ws t) : t.mem = s.mem := by rw [h.keeps]

/-- Writes that are made are bus calls. -/
theorem State.WritesAll.busOnly {as vs : List Word} {s t : State} (h : s.WritesAll as vs t) : s.BusOnly t := by
  rw [h.keeps]
  exact ⟨rfl, rfl, rfl, rfl, rfl, fun _ _ => rfl⟩

/-! ### A call that faults (R107) -/

/-- A load of words whose read `k` faults has made the reads before it. -/
theorem State.loadWords_fault {n k : Nat} {a x : Word} {ws : List Word} {s s1 : State} (hk : k < n)
    (hreads : s.ReadsAll (wordAddrs k a) ws s1) (hfault : s.ReadFaults (alignDown (slotAddr a k)) x) :
    s.loadWords n a = .fault x s1 := by
  induction k generalizing n a ws s with
  | zero =>
    obtain ⟨n, rfl⟩ := Nat.exists_eq_add_one.2 hk
    obtain ⟨-, rfl⟩ := hreads
    rw [slotAddr, Nat.mul_zero, BitVec.add_zero] at hfault
    rw [State.loadWords, State.memRead32_eq, State.busRead32_fault hfault]
    rfl
  | succ k ih =>
    obtain ⟨n, rfl⟩ := Nat.exists_eq_add_one.2 (Nat.zero_lt_of_lt hk)
    rw [wordAddrs_succ] at hreads
    obtain ⟨w, rest, s2, -, hread, hrest⟩ := hreads
    rw [slotAddr_succ] at hfault
    rw [State.loadWords, State.memRead32_eq, State.busRead32_done.2 hread, Access.andThen,
      ih (Nat.lt_of_succ_lt_succ hk) hrest (hread.readFaults hfault)]
    rfl

/-- A store of words whose write `k` faults has made the writes before it. -/
theorem State.storeWords_fault {k : Nat} {a x : Word} {vs : List Word} {s s1 : State} (hk : k < vs.length)
    (hwrites : s.WritesAll (wordAddrs k a) (vs.take k) s1) (hfault : s.WriteFaults (alignDown (slotAddr a k)) x) :
    s.storeWords vs a = .fault x s1 := by
  induction k generalizing a vs s with
  | zero =>
    obtain ⟨v, vs, rfl⟩ := List.exists_cons_of_length_pos hk
    obtain ⟨-, rfl⟩ := hwrites
    rw [slotAddr, Nat.mul_zero, BitVec.add_zero] at hfault
    rw [State.storeWords, State.memWrite32_eq, State.busWrite32_fault hfault]
    rfl
  | succ k ih =>
    obtain ⟨v, vs, rfl⟩ := List.exists_cons_of_length_pos (Nat.zero_lt_of_lt hk)
    rw [wordAddrs_succ, List.take_succ_cons] at hwrites
    obtain ⟨v', rest, s2, hcons, hwrite, hrest⟩ := hwrites
    obtain ⟨rfl, rfl⟩ := List.cons.inj hcons
    rw [slotAddr_succ] at hfault
    rw [State.storeWords, State.memWrite32_eq, State.busWrite32_done.2 hwrite, Access.andThen]
    exact ih (Nat.lt_of_succ_lt_succ hk) hrest (hwrite.writeFaults hfault)

/-! ### A block of words in raw memory (R471, R480) -/

/-- Memory with the words `vs` stored in order, word `k` at `place k`. -/
def Memory.writeBlock (place : Nat → Nat) : List Word → Memory → Memory
  | [], m => m
  | v :: vs, m => Memory.writeBlock (fun k => place (k + 1)) vs (m.writeWord (place 0) v)

/-- A block of words keeps the canonical form. -/
theorem Memory.wf_writeBlock (place : Nat → Nat) (vs : List Word) {m : Memory} (hm : m.wf = true) :
    (m.writeBlock place vs).wf = true := by
  induction vs generalizing place m with
  | nil => exact hm
  | cons v vs ih => exact ih _ (Memory.wf_writeWord _ v hm)

/-- A block of words leaves every byte outside its words. -/
theorem Memory.read_writeBlock_ne {place : Nat → Nat} {vs : List Word} {a : Nat}
    (h : ∀ k < vs.length, a < place k ∨ place k + 4 ≤ a) (m : Memory) : (m.writeBlock place vs).read a = m.read a := by
  induction vs generalizing place m with
  | nil => rfl
  | cons v vs ih =>
    have hrest := ih (place := fun k => place (k + 1)) (fun k hk => h (k + 1) (Nat.succ_lt_succ hk))
    exact (hrest _).trans (Memory.read_writeWord_ne (h 0 (Nat.zero_lt_succ _)) v m)

/-- A word that a block of words does not touch is unchanged. -/
theorem Memory.readWord_writeBlock_ne {place : Nat → Nat} {vs : List Word} {a : Nat}
    (h : ∀ k < vs.length, place k + 4 ≤ a ∨ a + 4 ≤ place k) (m : Memory) :
    (m.writeBlock place vs).readWord a = m.readWord a := by
  have hbyte {b : Nat} (hle : a ≤ b) (hlt : b < a + 4) : (m.writeBlock place vs).read b = m.read b := by
    refine Memory.read_writeBlock_ne (fun k hk => ?_) m
    have := h k hk
    omega
  simp only [Memory.readWord]
  rw [hbyte (b := a), hbyte (b := a + 1), hbyte (b := a + 2), hbyte (b := a + 3)] <;> omega

/-- A word of the block is read back unless a later word lies over it. -/
theorem Memory.readWord_writeBlock {place : Nat → Nat} {vs : List Word} {j : Nat} {v : Word} (hv : vs[j]? = some v)
    (h : ∀ k < vs.length, j < k → place k + 4 ≤ place j ∨ place j + 4 ≤ place k) {m : Memory} (hm : m.wf = true) :
    (m.writeBlock place vs).readWord (place j) = v := by
  induction vs generalizing place j m with
  | nil => cases hv
  | cons v' vs ih =>
    cases j with
    | zero =>
      cases hv
      have hlater := Memory.readWord_writeBlock_ne (place := fun k => place (k + 1)) (vs := vs) (a := place 0)
        (fun k hk => h (k + 1) (Nat.succ_lt_succ hk) k.zero_lt_succ) (m.writeWord (place 0) v)
      exact hlater.trans (Memory.readWord_writeWord _ v hm)
    | succ j =>
      exact ih (place := fun k => place (k + 1)) hv
        (fun k hk hj => h (k + 1) (Nat.succ_lt_succ hk) (Nat.succ_lt_succ hj)) (Memory.wf_writeWord _ v' hm)

/-- Writes to slots that all lead to raw memory are made, each in its place. -/
theorem State.writesAll_raw {place : Nat → Nat} {vs : List Word} {a : Word} {s : State}
    (h : ∀ k < vs.length, s.rawAt (slotAddr a k) (place k)) :
    s.WritesAll (wordAddrs vs.length a) vs { s with mem := s.mem.writeBlock place vs } := by
  induction vs generalizing place a s with
  | nil => exact ⟨rfl, rfl⟩
  | cons v vs ih =>
    rw [List.length_cons, wordAddrs_succ]
    obtain ⟨-, hfirst⟩ := h 0 (Nat.zero_lt_succ _)
    rw [slotAddr, Nat.mul_zero, BitVec.add_zero] at hfirst
    refine ⟨v, vs, _, rfl, State.busWrite32_done.1 (State.busWrite32_raw hfirst), ?_⟩
    refine ih (place := fun k => place (k + 1)) (s := { s with mem := s.mem.writeWord (place 0) v }) fun k hk => ?_
    rw [← slotAddr_succ]
    exact h (k + 1) (Nat.succ_lt_succ hk)

end Sys2Proof.Machine
end

section
/-! SUPPORT. Block transfers (R470 to R480): each instruction within R472 as its bus calls and its register writes. -/

namespace Sys2Proof.Machine

open Sys2Proof.Config

/-! ### Addresses (R471) -/

/-- The start address of a block, in its two spellings. -/
theorem blockStart_eq (p u : Bool) (base : Word) (list : BitVec 16) :
    blockStart p u base list = blockLow p u base list := by
  rw [blockLow, ← length_listedRegs]
  cases p <;> cases u <;> rfl

/-- The base after a block, in its two spellings. -/
theorem blockEnd_eq (u : Bool) (base : Word) (list : BitVec 16) : blockEnd u base list = blockAfter u base list := by
  rw [blockEnd, blockAfter, blockBytes, length_listedRegs]

/-- The loads of a block: one word for each slot from the lowest address up. -/
theorem State.blockLoad_eq (p u : Bool) (rn : RegNo) (list : BitVec 16) (s : State) :
    s.blockLoad p u rn list = s.loadWords (listCount list) (blockLow p u (s.reg rn) list) := by
  rw [State.blockLoad, length_listedRegs, blockStart_eq]

/-! ### USR-mode registers (R476) -/

/-- A USR-mode register is the view that USR mode has of it; r15 has no bank. -/
theorem State.userReg_eq (n : RegNo) (s : State) : s.userReg n =
    if h : n.toNat < 15 then s.cpu.view Mode.usr.bits ⟨n.toNat, h⟩ else s.reg n := by
  rw [State.userReg]
  split
  · exact ite_congr (propext eq_comm) (fun _ => rfl) fun _ => rfl
  · rfl

/-! ### The instructions within R472 -/

section

variable {c : Cond} {p u w : Bool} {rn : RegNo} {list : BitVec 16} {low : BitVec 15} {s : State}

/-- LDM (R473): the loads, then the checks of the word for r15, then the writes. -/
theorem exec_ldm (h : blockTrap (.ldm c p u w rn list) s = none) : exec (.ldm c p u w rn list) s =
    (s.loadWords (listCount list) (blockLow p u (s.reg rn) list)).finish fun vs s1 =>
      if list.getLsbD 15 then
        match s1.pcTarget (loadPcKind s.variant) (lastWord vs) with
        | .error why => s1.raise why
        | .ok t => .next ((s1.blockCommit w rn (blockAfter u (s.reg rn) list) list vs).setPendingPC t)
      else .next (s1.blockCommit w rn (blockAfter u (s.reg rn) list) list vs) := by
  rw [← State.blockLoad_eq, ← blockEnd_eq]
  exact State.guarded_pass ((firstApplying_ldm c p u w rn list s).trans h)

/-- LDM of user registers (R477): the loads, then the writes. -/
theorem exec_ldmUser (h : blockTrap (.ldmUser c p u w rn low) s = none) : exec (.ldmUser c p u w rn low) s =
    (s.loadWords (listCount (low.setWidth 16)) (blockLow p u (s.reg rn) (low.setWidth 16))).finish fun vs s1 =>
      .next (s1.setUserRegs (listedRegs (low.setWidth 16)) vs) := by
  rw [← State.blockLoad_eq, ← zero_append_low]
  exact State.guarded_pass ((firstApplying_ldmUser c p u w rn low s).trans h)

/-- LDM exception return (R478): the loads, then the return with the writes in the old mode. -/
theorem exec_ldmReturn (hlist : list = low.setWidth 16 ||| 0x8000#16)
    (h : blockTrap (.ldmReturn c p u w rn low) s = none) : exec (.ldmReturn c p u w rn low) s =
      (s.loadWords (listCount list) (blockLow p u (s.reg rn) list)).finish fun vs s1 =>
        s1.exceptionReturn (lastWord vs) (State.blockCommit w rn (blockAfter u (s.reg rn) list) list vs) := by
  rw [← one_append_low] at hlist
  subst hlist
  rw [← State.blockLoad_eq, ← blockEnd_eq]
  exact State.guarded_pass ((firstApplying_ldmReturn c p u w rn low s).trans h)

/-- STM (R475): the stores, then the write-back. -/
theorem exec_stm (h : blockTrap (.stm c p u w rn list) s = none) : exec (.stm c p u w rn list) s =
    (s.storeWords ((listedRegs list).map s.reg) (blockLow p u (s.reg rn) list)).finish fun _ s1 =>
      .next (s1.blockWriteBack w rn (blockAfter u (s.reg rn) list)) := by
  rw [← blockStart_eq, ← blockEnd_eq]
  exact State.guarded_pass ((firstApplying_stm c p u w rn list s).trans h)

/-- STM of user registers (R479): the stores, and no write-back. -/
theorem exec_stmUser (h : blockTrap (.stmUser c p u w rn list) s = none) : exec (.stmUser c p u w rn list) s =
    (s.storeWords ((listedRegs list).map s.userReg) (blockLow p u (s.reg rn) list)).finish fun _ s1 => .next s1 := by
  rw [← blockStart_eq]
  exact State.guarded_pass ((firstApplying_stmUser c p u w rn list s).trans h)

/-- The base of STM is not r15 (R472). -/
theorem base_ne_pc_of_stm (h : blockTrap (.stm c p u w rn list) s = none) : rn ≠ 15#4 := by
  simp only [blockTrap, ite_some_eq_none] at h
  exact h.1

/-- STM of user registers has no write-back (R472). -/
theorem writeBack_eq_false_of_stmUser (h : blockTrap (.stmUser c p u w rn list) s = none) : w = false := by
  simp only [blockTrap, ite_some_eq_none] at h
  obtain ⟨-, -, hw, -⟩ := h
  exact Bool.eq_false_of_not_eq_true hw

end

/-! ### The checks after bus calls -/

section

variable {s s1 : State} (h : s.BusOnly s1)
include h

/-- The checks of a word for r15 do not depend on the bus calls before them (R473). -/
theorem State.BusOnly.pcTarget_load (v : Word) : s1.pcTarget (loadPcKind s.variant) v = s.loadedTarget v := by
  obtain ⟨-, -, -, hparams, -⟩ := h
  rw [← State.pcTarget_load, State.pcTarget, State.pcTarget, hparams]

/-- The checks of a return do not depend on the bus calls before them (R478). -/
theorem State.BusOnly.returnTarget (v r : Word) : s1.returnTarget v r = s.returnTarget v r := by
  obtain ⟨hcpu, -, -, hparams, -⟩ := h
  rw [State.returnTarget, State.returnTarget, hcpu, hparams]

/-- The word that a return writes to CPSR does not depend on the bus calls before it (R478). -/
theorem State.BusOnly.returnCpsr (v : Word) : s1.returnCpsr v = s.returnCpsr v := by
  simp only [State.returnCpsr, State.variant, h.1]

/-- A register does not depend on the bus calls before it is read. -/
theorem State.BusOnly.reg (n : RegNo) : s1.reg n = s.reg n := by
  simp only [State.reg, h.1]

end

/-! ### What a block transfer leaves -/

/-- Whatever becomes of the stepping CPU after answered reads, the block round it, memory and the calls are those of the
reads. -/
theorem State.ReadsAll.setCpu_frame {as ws : List Word} {s s1 t : State} (h : s.ReadsAll as ws s1) {c : Cpu}
    (ht : t = s1.setCpu c) : KeepsBlock s t ∧ SameBus s1 t ∧ ∀ a : Nat, t.mem.read a = s.mem.read a := by
  subst ht
  refine ⟨h.busOnly.2.trans (.setCpu c s1), by simp [SameBus], fun a => ?_⟩
  rw [State.setCpu_mem, h.mem]

/-- A switch of the bank changes CPSR, the live array, the banks and the pending target alone. -/
theorem SwitchesBank.cpu_eq {s t : State} (h : SwitchesBank s t) : t.cpu = { s.cpu with
    r := t.cpu.r, cpsr := t.cpu.cpsr, spsr := t.cpu.spsr, banks := t.cpu.banks, pendingPC := t.cpu.pendingPC } := by
  obtain ⟨-, -, -, hcfg, hbus, hpc, hnext, htick, hstarted, hhalted, hirq, hfiq⟩ := h
  simp only [← hcfg, ← hbus, ← hpc, ← hnext, ← htick, ← hstarted, ← hhalted, ← hirq, ← hfiq]

/-- The writes of a return are one update of the stepping CPU. -/
theorem State.returnWrites_eq_setCpu (new target : Word) (s : State) :
    ∃ c, (s.putCpsr new).setPendingPC target = s.setCpu c := by
  obtain ⟨c, hput, -⟩ := s.putCpsr_eq_setCpu new
  rw [hput, State.setPendingPC, State.setCpu_setCpu]
  exact ⟨_, rfl⟩

section

variable (w : Bool) (rn : RegNo) (v : Word) (s : State)

/-- The write-back of a block transfer changes the base alone. -/
theorem Keeps.blockWriteBack : Keeps (if w then [rn] else []) 0#32 s (s.blockWriteBack w rn v) := by
  cases w with
  | true => exact .setReg rn v s
  | false => exact .refl s

/-- The write-back of a block transfer keeps the bus. -/
theorem SameBus.blockWriteBack : SameBus s (s.blockWriteBack w rn v) := by
  cases w with
  | true => exact .setReg rn v s
  | false => exact .refl s

end

/-! ### The obligations -/

/-- Settles O20: the words are checked for r15, then written to the listed registers after the base. -/
theorem loadMultiple : Obligations.LoadMultiple := by
  intro c p u w rn list s s1 ws i htrap hreads word goes
  have hlen : ws.length = listCount list := hreads.length.trans (length_wordAddrs _ _)
  have hbus := hreads.busOnly
  have hexec := exec_ldm htrap
  rw [State.loadWords_done.2 hreads, Access.finish_done] at hexec
  have hregs := State.RegsOnly.blockCommit w rn (blockAfter u (s.reg rn) list) list ws s1
  have hreg (n : RegNo) (hn : n ≠ 15#4) := State.reg_blockCommit hlen hn w rn (blockAfter u (s.reg rn) list) s1
  set t := s1.blockCommit w rn (blockAfter u (s.reg rn) list) list ws
  simp only [hbus.reg] at hreg
  have hgoes {t' : State} {pending : Option Word} (hexec : exec i s = .next t')
      (ht' : t' = s1.setCpu { s1.cpu with r := t.cpu.r, pendingPC := pending }) : goes pending := by
    have hcpu : t'.cpu = { s1.cpu with r := t.cpu.r, pendingPC := pending } := by rw [ht', State.cpu_setCpu]
    have hlive (n : RegNo) : t'.reg n = t.reg n := by rw [State.reg, hcpu]; rfl
    refine ⟨t', hexec, fun n hn => (hlive n).trans (hreg n hn), ?_, ?_, hreads.setCpu_frame ht'⟩
    · rw [hlive, hregs.2, hbus.reg]
    · rw [hcpu, hbus.1]
  refine ⟨fun hpc => ?_, fun hpc => ?_⟩
  · rw [hpc] at hexec
    rw [← hbus.1]
    exact hgoes hexec hregs.1
  · rw [if_pos hpc, hbus.pcTarget_load, lastWord_eq hpc hlen] at hexec
    have hword : word 15#4 = ws.getD (slotOf list 15) 0#32 := rfl
    rw [hword]
    cases htarget : s.loadedTarget (ws.getD (slotOf list 15) 0#32) with
    | error why => rw [htarget] at hexec; exact hexec
    | ok target => rw [htarget] at hexec; exact hgoes hexec (hregs.setPendingPC target)

/-- Settles O21: the words are written to the USR-mode registers of the list. -/
theorem loadMultipleUser : Obligations.LoadMultipleUser := by
  intro c p u w rn low s s1 ws i list htrap hreads
  have hlen : ws.length = listCount list := hreads.length.trans (length_wordAddrs _ _)
  have hbus := hreads.busOnly
  have hexec := exec_ldmUser htrap
  rw [State.loadWords_done.2 hreads, Access.finish_done] at hexec
  obtain ⟨hregs, hpc⟩ := State.UserRegsOnly.setUserRegs (listedRegs list) ws s1
  have hview (m : BitVec 5) (n : Fin 15) := State.view_setUserRegs hlen m n s1
  have hcpu := (congrArg State.cpu hregs).trans (State.cpu_setCpu _ s1)
  rw [hbus.1] at hview hcpu
  exact ⟨_, hexec, hview, hpc.trans (hbus.reg _), hcpu, hreads.setCpu_frame hregs⟩

/-- Settles O22: the checks of the return, then the writes in the old mode and the switch of the bank, which keeps them. -/
theorem loadMultipleReturn : Obligations.LoadMultipleReturn := by
  intro c p u w rn low s s1 ws i list htrap hreads word
  have hlen : ws.length = listCount list := hreads.length.trans (length_wordAddrs _ _)
  have hbus := hreads.busOnly
  have hpc : list.getLsbD 15 = true := by simp [list]
  have hexec := exec_ldmReturn (list := list) rfl htrap
  rw [State.loadWords_done.2 hreads, Access.finish_done, lastWord_eq hpc hlen, State.exceptionReturn_eq,
    hbus.returnTarget, hbus.returnCpsr, hbus.1] at hexec
  have hregs := State.RegsOnly.blockCommit w rn (blockAfter u (s.reg rn) list) list ws s1
  have hviewOld (m : BitVec 5) (n : Fin 15) :=
    State.view_blockCommit hlen w rn (blockAfter u (s.reg rn) list) m n s1
  set t := s1.blockCommit w rn (blockAfter u (s.reg rn) list) list ws
  have hcpuOld := hregs.cpu
  simp only [State.mode, hbus.1] at hviewOld hcpuOld
  have hword : word 15 = ws.getD (slotOf list 15) 0#32 := rfl
  rw [hword]
  cases htarget : s.returnTarget s.cpu.spsr (ws.getD (slotOf list 15) 0#32) with
  | error why => rw [htarget] at hexec; exact hexec
  | ok target =>
    rw [htarget] at hexec
    obtain ⟨hpending, hcpsr, hswitch, -, -⟩ := State.returnWrites (s.returnCpsr s.cpu.spsr) target t
    obtain ⟨c', hstate⟩ := State.returnWrites_eq_setCpu (s.returnCpsr s.cpu.spsr) target t
    have hcpu := hswitch.cpu_eq
    obtain ⟨hview, hspsr, hr15, -⟩ := hswitch
    refine ⟨_, hexec, hpending, hcpsr, fun m n => (hview m n).trans (hviewOld m n), fun m => ?_, ?_, ?_,
      hreads.setCpu_frame (hstate.trans (hregs.setCpu c'))⟩
    · rw [hspsr, hregs.spsrView, hbus.1]
    · rw [hr15, hregs.2, hbus.reg]
    · rw [hcpuOld] at hcpu
      exact hcpu

/-- Settles O23: the registers are read, then stored in order, then the base is written. -/
theorem storeMultiple : Obligations.StoreMultiple := by
  intro c p u w user rn list s i low source rest htrap
  obtain ⟨hexec, hbase⟩ : exec i s = ((s.storeWords ((listedRegs list).map source) low).finish fun _ s1 =>
      .next (s1.blockWriteBack w rn (blockAfter u (s.reg rn) list))) ∧ (w = true → rn ≠ 15#4) := by
    cases user with
    | false =>
      have hsource : source = s.reg := by funext n; simp [source]
      rw [hsource]
      exact ⟨exec_stm htrap, fun _ => base_ne_pc_of_stm htrap⟩
    | true =>
      have hsource : source = s.userReg := by funext n; simp [source, State.userReg_eq]
      have hw := writeBack_eq_false_of_stmUser htrap
      rw [hsource, hw]
      exact ⟨exec_stmUser htrap, nofun⟩
  have hstore {s1 : State}
      (hwrites : s.WritesAll (wordAddrs (listCount list) low) ((listedRegs list).map source) s1) :
      ∃ t, exec i s = .next t ∧ rest t ∧ SameBus s1 t := by
    have hbus := hwrites.busOnly
    rw [← length_listedRegs, ← List.length_map (f := source)] at hwrites
    rw [State.storeWords_done.2 hwrites, Access.finish_done] at hexec
    obtain ⟨hcpu, hblock, -, hpending⟩ := Keeps.blockWriteBack w rn (blockAfter u (s.reg rn) list) s1
    refine ⟨_, hexec, ⟨fun hw => ?_, hbus.keepsCpu hcpu, hbus.2.trans hblock, ?_⟩, .blockWriteBack w rn _ s1⟩
    · rw [State.blockWriteBack, if_pos hw, State.reg_setReg (hbase hw)]
    · rw [hpending, hbus.1]
  refine ⟨fun place hm hraw => ?_, fun vs s1 hvs hwrites => ?_⟩
  · have hcount : ((listedRegs list).map source).length = listCount list := by rw [List.length_map, length_listedRegs]
    rw [State.blockAt, ← hcount] at hraw
    have hwrites := State.writesAll_raw hraw
    rw [hcount] at hwrites
    obtain ⟨t, hexec, hrest, hmem, hevents, hdraws⟩ := hstore hwrites
    refine ⟨t, hexec, hrest, ?_, fun n hn hlater => ?_, fun a ha => ?_, hevents, hdraws⟩
    · rw [hmem]; exact Memory.wf_writeBlock place _ hm
    · rw [hmem]
      refine Memory.readWord_writeBlock ?_ (hcount ▸ hlater) hm
      rw [List.getElem?_map, listedRegs_slotOf hn]
      rfl
    · rw [hmem]; exact Memory.read_writeBlock_ne (hcount ▸ ha) s.mem
  · have hlen : vs.length = listCount list := hwrites.length.trans (length_wordAddrs _ _)
    have hwords := eq_take_map_listedRegs hlen le_rfl fun n hn _ => hvs n hn
    rw [List.take_of_length_le (by rw [List.length_map, length_listedRegs])] at hwords
    exact hstore (hwords ▸ hwrites)

/-- Settles O25: the access that faults halts the instruction where the accesses before it left the block. -/
theorem blockBusFault : Obligations.BlockBusFault := by
  intro c p u w rn list low s s1 vs k x start halts load store
  have hload {i : Instr} {l : BitVec 16} {rest : List Word → State → Result}
      (hexec : exec i s = (s.loadWords (listCount l) (start l)).finish rest) (hk : k < listCount l)
      (hreads : s.ReadsAll (wordAddrs k (start l)) vs s1)
      (hfault : s.ReadFaults (alignDown (slotAddr (start l) k)) x) : halts i := by
    rw [State.loadWords_fault hk hreads hfault, Access.finish_fault] at hexec
    exact hexec
  have hstore {i : Instr} {source : RegNo → Word} {rest : Unit → State → Result}
      (hexec : exec i s = (s.storeWords ((listedRegs list).map source) (start list)).finish rest)
      (hk : k < listCount list)
      (hvs : ∀ n : RegNo, list.getLsbD n.toNat = true → slotOf list n.toNat < k →
        vs[slotOf list n.toNat]? = some (source n))
      (hwrites : s.WritesAll (wordAddrs k (start list)) vs s1)
      (hfault : s.WriteFaults (alignDown (slotAddr (start list) k)) x) : halts i := by
    rw [eq_take_map_listedRegs (hwrites.length.trans (length_wordAddrs _ _)) hk.le hvs] at hwrites
    rw [State.storeWords_fault (by rwa [List.length_map, length_listedRegs]) hwrites hfault,
      Access.finish_fault] at hexec
    exact hexec
  refine ⟨fun ht => hload (exec_ldm ht), fun ht => hload (exec_ldmUser ht), fun ht => hload (exec_ldmReturn rfl ht),
    fun ht => hstore (exec_stm ht), fun ht => ?_⟩
  simp only [← State.userReg_eq]
  exact hstore (exec_stmUser ht)

end Sys2Proof.Machine
end

section
/-! SUPPORT. Branches (R500 to R504): the two ends of a write of the program counter, with and without the link, and the
target of an exchange by the low bits of the register. -/

namespace Sys2Proof.Machine

open Sys2Proof.Config

/-! ### The two ends of a branch (R240, R501, R504) -/

/-- A branch taken: `target` is pending, `link` holds after it, and no register outside `ds` changed. -/
def State.Branches (ds : List RegNo) (link : State → Prop) (target : Word) (s : State) (r : Result) : Prop :=
  ∃ t, r = .next t ∧ t.cpu.pendingPC = some target ∧ link t ∧ KeepsCpu ds 0#32 s t ∧ KeepsBlock s t ∧ KeepsBus s t

/-- The link holds the address of the next instruction. -/
def State.Linked (s t : State) : Prop := t.reg 14#4 = s.reg 15#4 - 4#32

section

variable {k : PcKind} {a target : Word} {why : StopReason} {s : State}

/-- A rule that has written `ds` alone takes its branch by setting the target. -/
theorem Keeps.branches {ds : List RegNo} {link : State → Prop} {t : State} (h : Keeps ds 0#32 s t)
    (hlink : link (t.setPendingPC target)) : s.Branches ds link target (.next (t.setPendingPC target)) := by
  obtain ⟨hcpu, hblock, hbus, -⟩ := h
  exact ⟨_, rfl, State.pendingPC_setPendingPC _ _, hlink, hcpu.setPendingPC target, hblock.trans (.setCpu _ _),
    hbus.trans (.setCpu _ _)⟩

/-- A target that passes the checks is branched to, and no register changes. -/
theorem State.branchTo_ok (h : s.pcTarget k a = .ok target) :
    s.Branches [] (fun _ => True) target (s.branchTo k a) := by
  rw [State.branchTo, h]
  exact (Keeps.refl s).branches trivial

/-- A target that passes the checks is branched to, and r14 alone changes. -/
theorem State.branchLink_ok (h : s.pcTarget k a = .ok target) :
    s.Branches [14#4] s.Linked target (s.branchLink k a) := by
  rw [State.branchLink, h]
  refine (Keeps.setReg 14#4 _ s).branches ?_
  rw [State.Linked, State.reg_setPendingPC, State.reg_setReg (by decide)]

/-- A target that fails a check halts the branch. -/
theorem State.branchTo_error (h : s.pcTarget k a = .error why) : s.branchTo k a = .next (s.halt why) := by
  rw [State.branchTo, h]; rfl

/-- A target that fails a check halts the branch before the link is written. -/
theorem State.branchLink_error (h : s.pcTarget k a = .error why) : s.branchLink k a = .next (s.halt why) := by
  rw [State.branchLink, h]; rfl

end

/-! ### Targets -/

/-- The offset of B and BL is four times the signed immediate (R500). -/
theorem signExtend_branchOffset (imm : BitVec 24) : (imm ++ 0#2).signExtend 32 = BitVec.ofInt 32 (4 * imm.toInt) := by
  rw [BitVec.signExtend, BitVec.toInt_append]
  simp

/-- The target of B and BL from an aligned `PC + 8` is aligned, so it passes the checks (R500). -/
theorem State.pcTarget_branchTarget {s : State} (h : (s.reg 15#4).toNat % 4 = 0) (imm : BitVec 24) :
    s.pcTarget .plain (s.branchTarget imm) = .ok (s.reg 15#4 + BitVec.ofInt 32 (4 * imm.toInt)) := by
  have haligned : (s.reg 15#4 + BitVec.ofInt 32 (4 * imm.toInt)).toNat % 4 = 0 := by
    rw [BitVec.toNat_add, BitVec.toNat_ofInt]
    omega
  rw [State.branchTarget, signExtend_branchOffset, State.pcTarget_plain, if_pos haligned]

section

variable {a : Word} {s : State}

/-- An odd register value is Thumb code (R240). -/
theorem State.pcTarget_interwork_odd (h : a.toNat % 2 = 1) :
    s.pcTarget .interwork a = .error (.unsupported (.thumbState a)) := by
  rw [State.pcTarget_interwork, if_pos h]

/-- An aligned register value is the target (R240). -/
theorem State.pcTarget_interwork_aligned (h : a.toNat % 4 = 0) : s.pcTarget .interwork a = .ok a := by
  rw [State.pcTarget_interwork, if_neg (by omega), State.pcTarget_plain, if_pos h]

/-- Bits 1:0 = 10 stop the branch when MISALIGNED_PC is fault (R240). -/
theorem State.pcTarget_interwork_fault (h : a.toNat % 4 = 2) (hp : s.params.misalignedPc = .fault) :
    s.pcTarget .interwork a = .error (.unpredictable .misalignedPC) := by
  rw [State.pcTarget_interwork, if_neg (by omega), State.pcTarget_plain, if_neg (by omega), hp]

/-- Bits 1:0 = 10 are cleared when MISALIGNED_PC is align (R240). -/
theorem State.pcTarget_interwork_align (h : a.toNat % 4 = 2) (hp : s.params.misalignedPc = .align) :
    s.pcTarget .interwork a = .ok (a - 2#32) := by
  rw [State.pcTarget_interwork, if_neg (by omega), State.pcTarget_plain, if_neg (by omega), hp, alignDown, h]

end

/-! ### The obligations -/

/-- Settles O26: the target is aligned with `PC + 8`, so both branches are taken, BL after its link. -/
theorem branchAndLink : Obligations.BranchAndLink := by
  intro c imm s h target goes
  have htarget := State.pcTarget_branchTarget h imm
  exact ⟨State.branchTo_ok htarget, State.branchLink_ok htarget⟩

/-- Settles O27: the low bits of the register decide the check of the target, which BX and BLX make before any write. -/
theorem branchExchange : Obligations.BranchExchange := by
  intro c rm s a goes exchanges
  have hexchanges {i : Instr} {ds : List RegNo} {link : State → Prop}
      (htaken : ∀ {target}, s.pcTarget .interwork a = .ok target → s.Branches ds link target (exec i s))
      (hhalts : ∀ {why}, s.pcTarget .interwork a = .error why → exec i s = .next (s.halt why)) :
      exchanges i ds link := by
    refine ⟨fun ha => htaken (State.pcTarget_interwork_aligned ha),
      fun ha => hhalts (State.pcTarget_interwork_odd ha), fun ha => ?_⟩
    cases hp : s.params.misalignedPc with
    | fault => exact hhalts (State.pcTarget_interwork_fault ha hp)
    | align => exact htaken (State.pcTarget_interwork_align ha hp)
  have hblx (hrm : rm ≠ 15#4) : exec (.blxReg c rm) s = s.branchLink .interwork a :=
    State.guarded_pass (if_neg (by simpa using hrm))
  refine ⟨hexchanges State.branchTo_ok State.branchTo_error, fun hrm => ?_, fun hrm => ?_⟩
  · exact hexchanges (fun h => hblx hrm ▸ State.branchLink_ok h) fun h => (hblx hrm).trans (State.branchLink_error h)
  · exact State.guarded_raise (if_pos (beq_iff_eq.2 hrm))

end Sys2Proof.Machine
end

section
/-! SUPPORT. The mode (R31, R535): it changes by a write of CPSR and by an exception entry alone, so no step leaves USR
mode under EXC_MODEL = unsupported (R652). -/

namespace Sys2Proof.Machine

open Sys2Proof.Config

/-! ### The mode of a status word -/

/-- Words that agree in the mode bits have the same mode. -/
theorem modeField_congr {w w' m : Word} (hm : modeField m = BitVec.allOnes 5) (h : w' &&& m = w &&& m) :
    modeField w' = modeField w := by
  have hand (x : Word) : modeField (x &&& m) = modeField x := by
    have hsplit : modeField (x &&& m) = modeField x &&& modeField m := BitVec.extractLsb'_and
    rw [hsplit, hm, BitVec.and_allOnes]
  rw [← hand w', h, hand]

/-- The mode is no flag of a result. -/
@[simp] theorem modeField_withNZCV (n z c v : Bool) (w : Word) : modeField (withNZCV n z c v w) = modeField w :=
  modeField_congr (by decide) (withNZCV_low n z c v w)

/-- The mode does not depend on a bit outside its field. -/
theorem modeField_setBit {n : Nat} (h : 1#32 <<< n &&& 31#32 = 0#32) (b : Bool) (w : Word) :
    modeField (setBit n b w) = modeField w :=
  modeField_congr (by decide) (setBit_and h b w)

/-! ### The mode of the stepping CPU -/

section

variable (s : State)

/-- The mode of a CPU put in place of the stepping CPU. -/
@[simp] theorem State.mode_setCpu (c : Cpu) : (s.setCpu c).mode = modeField c.cpsr := by
  rw [State.mode, State.cpu_setCpu]

/-- A register write keeps the mode. -/
@[simp] theorem State.mode_setReg (i : RegNo) (v : Word) : (s.setReg i v).mode = s.mode :=
  congrArg modeField (State.setReg_cpsr i v s)

/-- A write of a USR-mode register keeps the mode. -/
@[simp] theorem State.mode_setUserReg (i : RegNo) (v : Word) : (s.setUserReg i v).mode = s.mode := by
  unfold State.setUserReg
  split
  · split
    · exact s.mode_setReg i v
    · exact s.mode_setCpu _
  · rfl

/-- A write of the flags keeps the mode. -/
@[simp] theorem State.mode_setNZCV (n z c v : Bool) : (s.setNZCV n z c v).mode = s.mode :=
  (s.mode_setCpu _).trans (modeField_withNZCV n z c v _)

/-- A write of Q keeps the mode. -/
@[simp] theorem State.mode_stickQ (q : Bool) : (s.stickQ q).mode = s.mode := by
  unfold State.stickQ
  split
  · exact (s.mode_setCpu _).trans (modeField_setBit (by decide) true _)
  · rfl

/-- The pending target is no part of the mode. -/
@[simp] theorem State.mode_setPendingPC (t : Word) : (s.setPendingPC t).mode = s.mode := s.mode_setCpu _

/-- A raise keeps the mode (R15). -/
@[simp] theorem State.mode_halt (why : StopReason) : (s.halt why).mode = s.mode := s.mode_setCpu _

/-- A write of CPSR sets the mode. -/
@[simp] theorem State.mode_putCpsr (new : Word) : (s.putCpsr new).mode = modeField new := by
  obtain ⟨c, hput, hcpsr⟩ := s.putCpsr_eq_setCpu new
  rw [hput, State.mode_setCpu, hcpsr]

/-- The end of a step keeps the mode (R230). -/
@[simp] theorem State.mode_retire (cost : Nat) : (s.retire cost).mode = s.mode := by
  rw [State.retire, State.mode_setCpu, Cpu.advance_eq]
  split <;> rfl

end

/-! ### No step leaves USR mode (R535, R652) -/

section

variable {s t : State}

/-- Under EXC_MODEL = unsupported no move leaves USR mode. -/
theorem State.Move.mode_usr (m : s.Move t) (hx : s.params.excModel = .unsupported) (hu : privileged s.mode = false) :
    t.mode = s.mode := by
  cases m with
  | setReg i v => exact s.mode_setReg i v
  | setUserReg i v => exact s.mode_setUserReg i v
  | setNZCV n z c v => exact s.mode_setNZCV n z c v
  | stickQ q => exact s.mode_stickQ q
  | draw n => rfl
  | busRead h => rw [State.mode, h.cpu]; rfl
  | busWrite h => rw [State.mode, h.cpu]; rfl
  | setPendingPC _ _ => exact s.mode_setPendingPC _
  | putCpsr _ _ hM => exact (s.mode_putCpsr _).trans (hM hu)
  | putSpsr _ => exact s.mode_setCpu _
  | enterException k h => exact nomatch hx.symm.trans h

/-- Under EXC_MODEL = unsupported no run of moves leaves USR mode. -/
theorem State.Moves.mode_usr (m : s.Moves t) (hx : s.params.excModel = .unsupported)
    (hu : privileged s.mode = false) : t.mode = s.mode := by
  induction m with
  | refl => rfl
  | tail hmoves hmove ih =>
    obtain ⟨-, -, hparams, -⟩ := State.Moves.keepsBlock hmoves
    exact (hmove.mode_usr (by rw [hparams, hx]) (by rw [ih, hu])).trans ih

/-- Under EXC_MODEL = unsupported the step of a CPU in USR mode leaves it there (R230, R652). -/
theorem State.cpuStep_mode_usr (hx : s.params.excModel = .unsupported) (hu : privileged s.mode = false)
    (h : s.cpuStep = .next t) : t.mode = s.mode := by
  have hclear : s.clearPending.mode = s.mode := s.mode_setCpu _
  have hmode {u : State} (m : s.clearPending.Moves u) : u.mode = s.mode :=
    (m.mode_usr (by rw [State.clearPending, State.setCpu_params, hx]) (by rw [hclear, hu])).trans hclear
  obtain ⟨cost, r, hends, hcpu⟩ := s.cpuStep_ends
  rw [h] at hcpu
  cases hends with
  | done hmoves =>
    cases hcpu
    rw [State.mode_retire, hmode hmoves]
  | @raised u hmoves why =>
    cases hcpu
    rw [State.mode_retire, State.mode_halt, hmode hmoves]

end

/-- Settles O59: the step of the CPU itself leaves it in USR mode; a step of the other CPU does not touch it, and a move
of the Clock changes its tick alone. -/
theorem userModeStays : Obligations.UserModeStays := by
  intro s t id hx hstep hmode
  cases hs : s.session with
  | some why => simp [step, State.blockStep, hs] at hstep
  | none =>
    cases hturn : s.turn with
    | none =>
      obtain ⟨hcpus, -⟩ := OnlyTicks.clockStep s
      rw [step_of_no_turn hs hturn] at hstep
      cases hstep
      rw [hcpus id]
      exact hmode
    | some k =>
      rw [step_of_turn hs hturn] at hstep
      obtain ⟨u, hu, hcur, -, -, -, hothers⟩ := (s.select k).cpuStep_keepsBlock
      cases hu.symm.trans hstep
      by_cases hid : id = k
      · subst hid
        have husr : (s.select id).mode = Mode.usr.bits := by rw [State.mode, State.cpu_select, hmode]
        have hstays := State.cpuStep_mode_usr (s := s.select id) hx (by rw [husr]; rfl) hu
        rw [husr, State.mode, ← State.cpuOf_cur, hcur] at hstays
        exact hstays
      · rw [hothers id hid, State.cpuOf_select, hmode]

end Sys2Proof.Machine
end

section
/-! SUPPORT. Which instructions change the mode (R535): every other instruction writes registers, flags, memory and the
program counter alone. -/

namespace Sys2Proof.Machine

open Sys2Proof.Config

/-! ### Results in the same mode -/

/-- The result is a next state in the same mode. -/
inductive State.Stays (s : State) : Result → Prop
  | next {t : State} (h : t.mode = s.mode) : Stays s (.next t)

section

variable {s t : State}

/-- What stays in the mode after a change that keeps the mode stays in it. -/
theorem State.Stays.trans {r : Result} (k : t.Stays r) (h : t.mode = s.mode) : s.Stays r := by
  cases k with
  | next hu => exact .next (hu.trans h)

/-- A raise keeps the mode (R15). -/
theorem State.stays_raise (why : StopReason) (s : State) : s.Stays (s.raise why) := .next (s.mode_halt why)

/-- A guarded rule keeps the mode when what it guards does. -/
theorem State.stays_guarded {checks : List (Bool × UnpredictableReason)} {r : Result} (h : s.Stays r) :
    s.Stays (s.guarded checks r) := by
  unfold State.guarded
  split
  · exact s.stays_raise _
  · exact h

/-- A guarded rule that leaves the mode has passed its checks. -/
theorem State.checks_of_not_stays {checks : List (Bool × UnpredictableReason)} {r : Result}
    (h : ¬s.Stays (s.guarded checks r)) : firstApplying checks = none := by
  cases hc : firstApplying checks with
  | none => rfl
  | some why =>
    rw [State.guarded_raise hc] at h
    exact absurd (s.stays_raise _) h

/-- Bus calls keep the mode, and so does the BusFault of a call (R107). -/
theorem Access.Calls.stays {α : Type} {x : Access α} {k : α → State → Result} (h : x.Calls s)
    (hk : ∀ (v : α) (t : State), t.Stays (k v t)) : s.Stays (x.finish k) := by
  have hmode : x.state.mode = s.mode := congrArg (fun c : Cpu => modeField c.cpsr) h.2
  cases x with
  | fault a t => exact (t.stays_raise _).trans hmode
  | done v t => exact (hk v t).trans hmode

/-- An instruction that leaves the mode goes on after its bus calls, which are answered and keep the stepping CPU. -/
theorem Access.Calls.done_of_not_stays {α : Type} {x : Access α} {k : α → State → Result} (h : x.Calls s)
    (hexec : x.finish k = .next t) (hleaves : ¬s.Stays (.next t)) : ∃ v s1, s1.cpu = s.cpu ∧ k v s1 = .next t := by
  obtain ⟨-, hcpu⟩ := h
  cases x with
  | fault a s1 =>
    refine absurd ?_ hleaves
    rw [← hexec]
    exact (s1.stays_raise _).trans (congrArg (fun c : Cpu => modeField c.cpsr) hcpu)
  | done v s1 => exact ⟨v, s1, hcpu, hexec⟩

end

/-! ### The shared operations of the instructions -/

/-- The write-back of a single transfer keeps the mode. -/
@[simp] theorem State.mode_writeBack (x : Index) (rn : RegNo) (v : Word) (s : State) :
    (s.writeBack x rn v).mode = s.mode := by
  unfold State.writeBack
  split <;> simp

/-- The register writes of a single load keep the mode when the write of the loaded value does. -/
theorem State.mode_commitLoad {write : State → State} (h : ∀ t : State, (write t).mode = t.mode) (x : Index)
    (rn : RegNo) (v : Word) (s : State) : (s.commitLoad x rn v write).mode = s.mode := by
  unfold State.commitLoad
  split <;> simp [h]

/-- The register writes of a block load keep the mode. -/
@[simp] theorem State.mode_blockCommit (w : Bool) (rn : RegNo) (v : Word) (list : BitVec 16) (vs : List Word)
    (s : State) : (s.blockCommit w rn v list vs).mode = s.mode :=
  congrArg modeField (s.blockCommit_cpsr_cfg w rn v list vs).1

/-- Writes of listed USR-mode registers keep the mode. -/
theorem State.mode_setUserRegs (rs : List RegNo) (vs : List Word) (s : State) :
    (s.setUserRegs rs vs).mode = s.mode := by
  rw [State.setUserRegs_eq]
  exact State.writeEach_keeps (P := fun t => t.mode = s.mode)
    (fun i _ v t ht => (t.mode_setUserReg i v).trans ht) vs rfl

/-- `pc <- target` keeps the mode (R240). -/
theorem State.stays_branchTo (k : PcKind) (t : Word) (s : State) : s.Stays (s.branchTo k t) := by
  unfold State.branchTo
  split
  · exact s.stays_raise _
  · exact .next (by simp)

/-- `pc <- target` with the link keeps the mode (R501, R504). -/
theorem State.stays_branchLink (k : PcKind) (t : Word) (s : State) : s.Stays (s.branchLink k t) := by
  unfold State.branchLink
  split
  · exact s.stays_raise _
  · exact .next (by simp [State.linkReg])

/-- The flags of a multiply keep the mode. -/
@[simp] theorem State.mode_multiplyFlags (sf n z c v : Bool) (draws : Nat) (s : State) :
    (s.multiplyFlags sf n z c v draws).mode = s.mode := by
  cases sf with
  | false => rfl
  | true => exact s.mode_setNZCV n z c v

/-- The register pair of a long multiply keeps the mode. -/
@[simp] theorem State.mode_setPair (hi lo : RegNo) (r : BitVec 64) (s : State) : (s.setPair hi lo r).mode = s.mode := by
  simp [State.setPair]

/-- The end of MUL and MLA keeps the mode. -/
theorem State.stays_mulWrite (sf : Bool) (rd : RegNo) (r : Word) (s : State) : s.Stays (s.mulWrite sf rd r) := by
  obtain ⟨c, draws, -, hwrite⟩ := s.mulWrite_eq sf rd r
  rw [hwrite]
  exact .next (by simp)

/-- The end of a long multiply keeps the mode. -/
theorem State.stays_longWrite (sf : Bool) (hi lo : RegNo) (r : BitVec 64) (s : State) :
    s.Stays (s.longWrite sf hi lo r) := by
  obtain ⟨c, v, draws, -, hwrite⟩ := s.longWrite_eq sf hi lo r
  rw [hwrite]
  exact .next (by simp)

/-- A load of one register keeps the mode. -/
theorem State.stays_loadTransfer (checks : List (Bool × UnpredictableReason)) (x : Index) (rn rd : RegNo) (o : Offset)
    (k : LsKind) (s : State) : s.Stays (s.loadTransfer checks x rn rd o k.load) :=
  State.stays_guarded ((k.load_calls _ s).stays fun v _ =>
    .next (State.mode_commitLoad (fun u => u.mode_setReg rd v) x rn _ _))

/-- A single load or store keeps the mode. -/
theorem LsForm.stays_run (f : LsForm) (s : State) : s.Stays (f.run s) := by
  obtain ⟨k, x, rn, rd, o⟩ := f
  cases k with
  | ldr =>
    change s.Stays (s.loadWordForm x rn rd o)
    unfold State.loadWordForm
    split
    · refine State.stays_guarded ((s.busRead32_calls _).stays fun v t => ?_)
      split
      · exact t.stays_raise _
      · exact .next (State.mode_commitLoad (fun u => u.mode_setPendingPC _) x rn _ t)
    · exact s.stays_loadTransfer _ x rn rd o .ldr
  | ldrt | ldrb | ldrh | ldrsb | ldrsh => exact s.stays_loadTransfer _ x rn rd o _
  | str | strb | strh =>
    exact State.stays_guarded ((LsKind.store_calls _ _ _ s).stays fun _ t => .next (t.mode_writeBack x rn _))
  | ldrd =>
    exact State.stays_guarded ((s.busRead32_calls _).stays fun v t => (t.busRead32_calls _).stays fun w u =>
      .next (State.mode_commitLoad (fun z => by simp) x rn _ u))
  | strd =>
    exact State.stays_guarded ((s.busWrite32_calls _ _).stays fun _ t => (t.busWrite32_calls _ _).stays fun _ u =>
      .next (u.mode_writeBack x rn _))

/-- SWP and SWPB keep the mode. -/
theorem State.stays_swapForm (rn rd rm : RegNo) (k l : LsKind) (v : Word) (s : State) :
    s.Stays (s.swapForm rn rd rm k.load (l.store v)) :=
  State.stays_guarded ((k.load_calls _ s).stays fun w t => (l.store_calls v _ t).stays fun _ u =>
    .next (u.mode_setReg rd w))

/-- LDM keeps the mode. -/
theorem stays_execLdm (p u w : Bool) (rn : RegNo) (list : BitVec 16) (s : State) :
    s.Stays (execLdm p u w rn list s) := by
  refine State.stays_guarded ((s.loadWords_calls _ _).stays fun vs t => ?_)
  split
  · split
    · exact t.stays_raise _
    · exact .next (by simp)
  · exact .next (by simp)

/-- LDM of user registers keeps the mode. -/
theorem stays_execLdmUser (p u w : Bool) (rn : RegNo) (low : BitVec 15) (s : State) :
    s.Stays (execLdmUser p u w rn low s) :=
  State.stays_guarded ((s.loadWords_calls _ _).stays fun vs t => .next (t.mode_setUserRegs _ vs))

/-- STM keeps the mode. -/
theorem stays_execStm (p u w : Bool) (rn : RegNo) (list : BitVec 16) (s : State) :
    s.Stays (execStm p u w rn list s) :=
  State.stays_guarded ((s.storeWords_calls _ _).stays fun _ _ =>
    .next (by unfold State.blockWriteBack; split <;> simp))

/-- STM of user registers keeps the mode. -/
theorem stays_execStmUser (p u w : Bool) (rn : RegNo) (list : BitVec 16) (s : State) :
    s.Stays (execStmUser p u w rn list s) :=
  State.stays_guarded ((s.storeWords_calls _ _).stays fun _ _ => .next rfl)

/-- A word with cond = 1111 on `v4` keeps the mode (R602). -/
theorem stays_execNvV4 (w : Word) (s : State) : s.Stays (execNvV4 w s) := by
  unfold execNvV4
  split
  · exact s.stays_raise _
  · exact .next rfl

/-! ### The operations that may change the mode -/

/-- MSR of CPSR keeps the mode in USR mode, MSR of an SPSR in every mode (R536, R537). -/
theorem State.stays_msrWrite (r : Psr) (fm : BitVec 4) (v : Word) (s : State)
    (h : r = .cpsr → privileged s.mode = false) : s.Stays (s.msrWrite r fm v) := by
  cases r with
  | cpsr =>
    change s.Stays (s.cpsrWrite v fm)
    unfold State.cpsrWrite
    split
    · exact s.stays_raise _
    · next hcheck =>
      obtain ⟨hnew, -⟩ := State.cpsrCheck_ok hcheck
      refine .next ((s.mode_putCpsr _).trans ?_)
      rw [hnew]
      exact modeField_masked (State.modeField_cpsrMask (h rfl))
  | spsr =>
    change s.Stays (s.spsrWrite v fm)
    unfold State.spsrWrite
    split
    · exact .next (s.mode_setCpu _)
    · exact s.stays_raise _

/-- SWI, BKPT and UNDEFINED words keep the mode under EXC_MODEL = unsupported (R630). -/
theorem State.stays_exceptionOr (k : Exception) (why : UnsupportedReason) {s : State}
    (h : s.params.excModel ≠ .architectural) : s.Stays (s.exceptionOr k why) := by
  unfold State.exceptionOr
  split
  · exact s.stays_raise _
  · next harch => exact absurd harch h

/-- A return from an exception keeps the mode, or writes the SPSR to CPSR (R305, R478). -/
theorem State.exceptionReturn_stays_or {target : Word} {before : State → State} {s t : State}
    (h : s.exceptionReturn target before = .next t) :
    s.Stays (.next t) ∨ t.cpu.cpsr = s.returnCpsr s.cpu.spsr := by
  rw [State.exceptionReturn_eq] at h
  split at h
  · cases h
    obtain ⟨-, hcpsr, -⟩ := State.returnWrites (s.returnCpsr s.cpu.spsr) _ (before s)
    exact .inr hcpsr
  · exact .inl (h ▸ s.stays_raise _)

/-- `DPWriteResult` keeps the mode, or it is the return from an exception of a mode with an SPSR (R305). -/
theorem State.dpWrite_stays_or {sf : Bool} {rd : RegNo} {r : Word} {c v : Bool} {s t : State}
    (h : s.dpWrite sf rd r c v = .next t) :
    s.Stays (.next t) ∨ sf = true ∧ rd = 15#4 ∧ hasSpsr s.mode = true ∧ t.cpu.cpsr = s.returnCpsr s.cpu.spsr := by
  unfold State.dpWrite at h
  split at h
  · next hrd =>
    split at h
    · next hsf =>
      split at h
      · next hs => exact (State.exceptionReturn_stays_or h).imp_right fun hcpsr => ⟨hsf, hrd, hs, hcpsr⟩
      · exact .inl (h ▸ s.stays_raise _)
    · exact .inl (h ▸ s.stays_branchTo _ _)
  · split at h
    · cases h
      exact .inl (.next ((State.mode_setNZCV _ _ _ _ _).trans (s.mode_setReg rd r)))
    · cases h
      exact .inl (.next (s.mode_setReg rd r))

/-- A data-processing instruction that leaves the mode is a return from an exception of a mode with an SPSR (R305). -/
theorem dpInstr_of_not_stays {op : DpOp} {c : Cond} {sf : Bool} {rn rd : RegNo} {o : DpOperand} {s t : State}
    (hexec : exec (dpInstr op c sf rn rd o) s = .next t) (h : ¬s.Stays (.next t)) :
    op.testsOnly = false ∧ sf = true ∧ rd = 15#4 ∧ hasSpsr s.mode = true ∧ t.cpu.cpsr = s.returnCpsr s.cpu.spsr := by
  rw [exec_dpInstr] at hexec
  have hchange : ¬s.Stays (s.guarded (o.checks op rn rd) (op.run sf rd (s.reg rn) (o.shifted s) s)) := by rwa [hexec]
  have hrun := (State.guarded_pass (State.checks_of_not_stays hchange)).symm.trans hexec
  cases ht : op.testsOnly with
  | false =>
    obtain ⟨_, _, hwrites⟩ := DpOp.run_writes ht sf rd (s.reg rn) (o.shifted s) s
    exact ⟨rfl, (State.dpWrite_stays_or (hwrites.symm.trans hrun)).resolve_left h⟩
  | true =>
    refine absurd ?_ h
    rw [← hrun]
    cases hl : op.logical with
    | true => rw [DpOp.run_test hl ht]; exact .next (s.mode_setNZCV _ _ _ _)
    | false => rw [DpOp.run_compare hl ht]; exact .next (s.mode_setNZCV _ _ _ _)

/-- LDM exception return that leaves the mode has one with an SPSR, which it writes to CPSR (R478). -/
theorem ldmReturn_of_not_stays {p u w : Bool} {rn : RegNo} {low : BitVec 15} {s t : State}
    (hexec : execLdmReturn p u w rn low s = .next t) (h : ¬s.Stays (.next t)) :
    hasSpsr s.mode = true ∧ t.cpu.cpsr = s.returnCpsr s.cpu.spsr := by
  have hchange : ¬s.Stays (execLdmReturn p u w rn low s) := by rwa [hexec]
  have hchecks := State.checks_of_not_stays hchange
  obtain ⟨vs, s1, hcpu, hreturn⟩ :=
    (s.loadWords_calls _ _).done_of_not_stays ((State.guarded_pass hchecks).symm.trans hexec) h
  refine ⟨by simpa using firstApplying_none.1 hchecks (!hasSpsr s.mode, .noSPSR) (by simp), ?_⟩
  obtain hstays | hcpsr := State.exceptionReturn_stays_or hreturn
  · exact absurd (hstays.trans (congrArg (fun c : Cpu => modeField c.cpsr) hcpu)) h
  · rw [hcpsr, State.returnCpsr, State.returnCpsr, State.variant, State.variant, hcpu]

/-- Settles O31: instruction by instruction; what may change the mode is a write of CPSR by MSR, a return or an
exception entry. -/
theorem modeChanges : Obligations.ModeChanges := by
  intro i s t hexec hmode
  have hleaves : ¬s.Stays (.next t) := fun h => by cases h; contradiction
  have hchange : ¬s.Stays (exec i s) := by rwa [hexec]
  by_cases hdp : familyOf i = .dataProcessing
  · obtain ⟨op, c, sf, rn, rd, o, rfl⟩ := eq_dpInstr_of_familyOf hdp
    obtain ⟨ht, rfl, rfl, hspsr, hcpsr⟩ := dpInstr_of_not_stays hexec hleaves
    exact .inr (.inl ⟨hspsr, hcpsr, .inl ⟨op, c, rn, o, ht, rfl⟩⟩)
  have hmsr (r : Psr) (mask : BitVec 4) (v : Word) (h : ¬s.Stays (s.msrWrite r mask v)) :
      r = .cpsr ∧ privileged s.mode = true := by
    by_contra hnot
    exact h (s.stays_msrWrite r mask v fun hr => Bool.eq_false_of_not_eq_true fun hp => hnot ⟨hr, hp⟩)
  have harch (k : Exception) (why : UnsupportedReason) (h : ¬s.Stays (s.exceptionOr k why)) :
      s.params.excModel = .architectural := by
    by_contra hnot
    exact h (State.stays_exceptionOr k why hnot)
  cases i with
  | mul | mla => exact absurd (State.stays_guarded (s.stays_mulWrite _ _ _)) hchange
  | umull | umlal | smull | smlal => exact absurd (State.stays_guarded (s.stays_longWrite _ _ _ _)) hchange
  | smlaxy | smlawy | qadd | qsub | qdadd | qdsub | smulxy | smulwy | smlalxy | clz | mrs =>
    exact absurd (State.stays_guarded (.next (by simp))) hchange
  | swp => exact absurd (s.stays_swapForm _ _ _ .ldr .str _) hchange
  | swpb => exact absurd (s.stays_swapForm _ _ _ .ldrb .strb _) hchange
  | strhImm | strhReg | ldrhImm | ldrhReg | ldrsbImm | ldrsbReg | ldrshImm | ldrshReg | ldrdImm | ldrdReg | strdImm
  | strdReg | ldrImm | ldrImmPost | ldrReg | ldrRegPost | ldrtImm | ldrtReg | ldrbImm | ldrbImmPost | ldrbReg
  | ldrbRegPost | ldrbtImm | ldrbtReg | strImm | strImmPost | strReg | strRegPost | strtImm | strtReg | strbImm
  | strbImmPost | strbReg | strbRegPost | strbtImm | strbtReg =>
    rw [exec_eq_run rfl] at hchange
    exact absurd (LsForm.stays_run _ s) hchange
  | ldm => exact absurd (stays_execLdm _ _ _ _ _ s) hchange
  | ldmUser => exact absurd (stays_execLdmUser _ _ _ _ _ s) hchange
  | stm => exact absurd (stays_execStm _ _ _ _ _ s) hchange
  | stmUser => exact absurd (stays_execStmUser _ _ _ _ _ s) hchange
  | b | bx => exact absurd (s.stays_branchTo _ _) hchange
  | bl => exact absurd (s.stays_branchLink _ _) hchange
  | blxReg => exact absurd (State.stays_guarded (s.stays_branchLink _ _)) hchange
  | pldImm | pldReg => exact absurd (.next rfl) hchange
  | nvV4 w => exact absurd (stays_execNvV4 w s) hchange
  | cdp | mcr | mrc | stcV4 | ldcV4 | stcPre | stcPostUp | stcPostDown | stcPostDownLong | ldcPre | ldcPostUp
  | ldcPostDown | ldcPostDownLong | mcrr | mrrc | cdp2 | mcr2 | mrc2 | stc2 | ldc2 | blxImm | unpredLsx10 | unpredLsx11
  | unpredUncond => exact absurd (s.stays_raise _) hchange
  | msrImm c r mask o =>
    obtain ⟨rfl, hp⟩ := hmsr r mask _ hchange
    exact .inl ⟨hp, c, mask, .inl o, rfl⟩
  | msrReg c r mask rm =>
    obtain ⟨rfl, hp⟩ := hmsr r mask _ fun h => hchange (State.stays_guarded h)
    exact .inl ⟨hp, c, mask, .inr rm, rfl⟩
  | ldmReturn c p u w rn low =>
    obtain ⟨hspsr, hcpsr⟩ := ldmReturn_of_not_stays hexec hleaves
    exact .inr (.inl ⟨hspsr, hcpsr, .inr ⟨c, p, u, w, rn, low, rfl⟩⟩)
  | swi c imm => exact .inr (.inr ⟨harch _ _ hchange, .inr (.inl ⟨c, imm, rfl⟩)⟩)
  | undefMedia | undefMsrImm | undefMul | undefSwap21 | undefSwap20 | undefSwap23 | undefMisc =>
    exact .inr (.inr ⟨harch _ _ hchange, .inl rfl⟩)
  | bkpt c hi lo =>
    have hx := harch _ _ fun h => hchange (State.stays_guarded h)
    obtain rfl : c = .al := by simpa [firstApplying] using State.checks_of_not_stays hchange
    exact .inr (.inr ⟨hx, .inr (.inr ⟨hi, lo, rfl⟩)⟩)
  | _ => exact absurd rfl hdp

end Sys2Proof.Machine
end

section
/-! SUPPORT. What an instruction leaves unchanged of its own CPU (R136, R620). -/

namespace Sys2Proof.Machine

/-- Nothing of a CPU changed but its registers below r15, its status words, its banks and the pending target. -/
structure Cpu.Works (c d : Cpu) : Prop where
  cfg : d.cfg = c.cfg
  bus : d.bus = c.bus
  pc : d.pc = c.pc
  pcNext : d.pcNext = c.pcNext
  r15 : d.r[15] = c.r[15]
  tick : d.tick = c.tick
  started : d.started = c.started
  halted : d.halted = c.halted
  irq : d.irq = c.irq
  fiq : d.fiq = c.fiq

section

variable {c d e : Cpu}

/-- Nothing changed. -/
theorem Cpu.Works.refl (c : Cpu) : c.Works c := ⟨rfl, rfl, rfl, rfl, rfl, rfl, rfl, rfl, rfl, rfl⟩

/-- One change after another. -/
theorem Cpu.Works.trans (h : c.Works d) (k : d.Works e) : c.Works e where
  cfg := k.cfg.trans h.cfg
  bus := k.bus.trans h.bus
  pc := k.pc.trans h.pc
  pcNext := k.pcNext.trans h.pcNext
  r15 := k.r15.trans h.r15
  tick := k.tick.trans h.tick
  started := k.started.trans h.started
  halted := k.halted.trans h.halted
  irq := k.irq.trans h.irq
  fiq := k.fiq.trans h.fiq

/-- A register below r15 written. -/
theorem Cpu.Works.setR (h : c.Works d) {i : Nat} (hi : i < 15) (v : Word) : c.Works { d with r := d.r.set i v } :=
  { h with r15 := (Vector.getElem_set_ne (by omega) (by decide) (by omega)).trans h.r15 }

/-- A mode switch (R38). -/
theorem Cpu.works_switchTo (new : Word) (c : Cpu) : c.Works (c.switchTo new) := by
  constructor <;> simp

end

section

variable {s t : State}

/-- A register write (R241). -/
theorem State.works_setReg (i : RegNo) (v : Word) (s : State) : s.cpu.Works (s.setReg i v).cpu := by
  unfold State.setReg
  split
  · exact .refl _
  · next hi =>
    have hne : i.toNat ≠ 15 := fun e => hi (BitVec.eq_of_toNat_eq e)
    rw [State.cpu_setCpu]
    exact (Cpu.Works.refl _).setR (by omega) v

/-- Every move of an instruction works within its CPU. -/
theorem State.Move.works (m : s.Move t) : s.cpu.Works t.cpu := by
  have hput {c : Cpu} (h : s.cpu.Works c) : s.cpu.Works (s.setCpu c).cpu := by rwa [State.cpu_setCpu]
  have hsame := Cpu.Works.refl s.cpu
  cases m with
  | setReg i v => exact State.works_setReg i v s
  | setUserReg i v =>
    unfold State.setUserReg
    split
    · split
      · exact State.works_setReg i v s
      · exact hput { hsame with }
    · exact hsame
  | stickQ q =>
    unfold State.stickQ
    split
    · exact hput { hsame with }
    · exact hsame
  | draw n => exact hsame
  | busRead h => rwa [h.cpu]
  | busWrite h => rwa [h.cpu]
  | setNZCV | setPendingPC | putSpsr => exact hput { hsame with }
  | putCpsr =>
    unfold State.putCpsr
    split
    · exact hput { hsame with }
    · exact hput (Cpu.works_switchTo _ _)
  | enterException k =>
    have hentered := (Cpu.works_switchTo (k.cpsr s.cpu.cpsr) s.cpu).setR (i := 14) (by decide) (k.link s.cpu.pc)
    exact hput { hentered with }

/-- Every run of moves works within its CPU. -/
theorem State.Moves.works (m : s.Moves t) : s.cpu.Works t.cpu := by
  induction m with
  | refl => exact .refl _
  | tail _ hmove ih => exact ih.trans hmove.works

end

/-- Settles O58: every instruction is a run of moves within its CPU, then completes or raises. -/
theorem instructionsStayInTheirCpu : Obligations.InstructionsStayInTheirCpu := by
  intro i s
  unfold State.reg
  generalize exec i s = r, exec_ends i s = hends
  cases hends with
  | done hm =>
    obtain ⟨hcfg, hbus, hpc, hnext, hr15, htick, hstarted, hhalted, hirq, hfiq⟩ := hm.works
    exact ⟨_, rfl, hm.keepsBlock, hcfg, hbus, hpc, hnext, hr15, htick, hstarted, hirq, hfiq, .inl hhalted⟩
  | @raised t hm why =>
    obtain ⟨hcfg, hbus, hpc, hnext, hr15, htick, hstarted, -, hirq, hfiq⟩ := hm.works
    obtain ⟨hblock, -, -, hcpu⟩ := t.halt_keeps why
    refine ⟨_, rfl, hm.keepsBlock.trans hblock, ?_⟩
    rw [hcpu, ← hpc]
    exact ⟨hcfg, hbus, rfl, hnext, hr15, htick, hstarted, hirq, hfiq, .inr ⟨why, rfl⟩⟩

end Sys2Proof.Machine
end

section
/-! SUPPORT. MRS and MSR (R530 to R537): the words that MSR writes bit by bit, its checks, and its operand forms. -/

namespace Sys2Proof.Machine

/-! ### MRS (R530) -/

/-- Settles O28: the two restrictions in their order, then a register write of the status word. -/
theorem readStatus : Obligations.ReadStatus := by
  intro c rd s
  refine ⟨fun hrd r => State.guarded_raise (if_pos (beq_iff_eq.2 hrd)), fun hrd => ?_, fun hrd hs => ?_,
    fun hrd hs => State.guarded_raise (by simp [firstApplying, hrd, hs])⟩
  · exact ⟨_, State.guarded_pass (by simp [firstApplying, hrd]), State.reg_setReg hrd _ s, Keeps.setReg rd _ s⟩
  · exact ⟨_, State.guarded_pass (by simp [firstApplying, hrd, hs]), State.reg_setReg hrd _ s, Keeps.setReg rd _ s⟩

/-! ### The masks of MSR (R536, R537) -/

/-- A bit of the byte mask is that of its byte in the field mask. -/
theorem getLsbD_byteMask (fm : BitVec 4) {n : Nat} (hn : n < 32) : (byteMask fm).getLsbD n = fm.getLsbD (n / 8) := by
  revert n
  revert fm
  decide

/-- A masked write, bit by bit. -/
theorem getLsbD_masked (w v m : Word) {n : Nat} (hn : n < 32) :
    ((w &&& ~~~m) ||| (v &&& m)).getLsbD n = if m.getLsbD n = true then v.getLsbD n else w.getLsbD n := by
  cases hm : m.getLsbD n <;> simp [hn, hm, -BitVec.getLsbD_eq_getElem]

/-- A bit that MSR may write to CPSR: its byte is in the field mask, in USR mode it is in the flags byte, and it is no
reserved bit (R536). -/
theorem State.getLsbD_cpsrMask (fm : BitVec 4) (s : State) {n : Nat} (hn : n < 32) :
    (s.cpsrMask fm .msr).getLsbD n = true ↔
      fm.getLsbD (n / 8) = true ∧ (privileged s.mode = true ∨ 24 ≤ n) ∧ (psrMask s.variant).getLsbD n = true := by
  have hflags : ∀ n < 32, (0xFF000000#32).getLsbD n = decide (24 ≤ n) := by decide
  rw [State.cpsrMask]
  cases privileged s.mode <;>
    simp [getLsbD_byteMask fm hn, hflags n hn, and_assoc, -BitVec.getLsbD_eq_getElem]

/-- MSR may write the mode when the control byte is in the field mask and the mode is privileged (R536). -/
theorem State.modeField_cpsrMask_ne_zero (fm : BitVec 4) (s : State) : modeField (s.cpsrMask fm .msr) ≠ 0#5 ↔
    fm.getLsbD 0 = true ∧ privileged s.mode = true := by
  rw [State.cpsrMask]
  cases privileged s.mode <;> cases s.variant <;> revert fm <;> decide

/-! ### MSR (R532, R533) -/

/-- MSR with r15 as Rm halts (R533). -/
theorem exec_msrInstr_pc (c : Cond) (r : Psr) (mask : BitVec 4) (s : State) :
    exec (msrInstr c r mask (.inr 15#4)) s = .next (s.halt (.unpredictable .pcSource)) :=
  State.guarded_raise (checks := [(15#4 == 15#4, .pcSource)]) (k := s.msrWrite r mask (s.reg 15#4)) rfl

/-- MSR is otherwise the write of its operand (R532, R533). -/
theorem exec_msrInstr {o : ImmOp ⊕ RegNo} (ho : o ≠ .inr 15#4) (c : Cond) (r : Psr) (mask : BitVec 4) (s : State) :
    exec (msrInstr c r mask o) s = s.msrWrite r mask (msrOperand o s) := by
  cases o with
  | inl x => rfl
  | inr rm =>
    have hrm : rm ≠ 15#4 := fun h => ho (congrArg Sum.inr h)
    exact State.guarded_pass (if_neg (by simpa using hrm))

/-- Settles O30: the write is masked, bit by bit. -/
theorem writeSpsr : Obligations.WriteSpsr := by
  intro c mask o s i
  refine ⟨fun ho => ?_, fun ho hs => ?_, fun ho hs => ?_⟩
  · subst ho
    exact exec_msrInstr_pc c .spsr mask s
  · refine (exec_msrInstr ho c .spsr mask s).trans (if_neg ?_)
    rw [hs]; decide
  · refine ⟨_, (exec_msrInstr ho c .spsr mask s).trans (if_pos hs), fun n hn => ?_⟩
    simp only [getLsbD_masked _ _ _ hn, BitVec.getLsbD_and, getLsbD_byteMask mask hn, Bool.and_eq_true]

/-- The word whose bits are written as the masks and the privilege let them is that of `CPSRWrite` (R536). -/
theorem State.cpsrNew_of_bits {fm : BitVec 4} {v new : Word} {s : State}
    (h : ∀ n < 32, new.getLsbD n =
      if fm.getLsbD (n / 8) = true ∧ (privileged s.mode = true ∨ 24 ≤ n) ∧ (psrMask s.variant).getLsbD n = true then
        v.getLsbD n
      else s.cpu.cpsr.getLsbD n) : s.cpsrNew v fm .msr = new := by
  apply BitVec.eq_of_getLsbD_eq
  intro n hn
  rw [h n hn, State.cpsrNew, getLsbD_masked _ _ _ hn]
  exact if_congr (s.getLsbD_cpsrMask fm hn) rfl rfl

/-- The checks of MSR to CPSR on the word it would write (R536). -/
theorem State.cpsrCheck_msr (v : Word) (fm : BitVec 4) (s : State) : s.cpsrCheck v fm .msr =
    if flagT (s.cpsrNew v fm .msr) = flagT s.cpu.cpsr then
      if (fm.getLsbD 0 = true ∧ privileged s.mode = true) ∧ validMode (modeField (s.cpsrNew v fm .msr)) = false then
        .error (.unpredictable .invalidMode)
      else .ok (s.cpsrNew v fm .msr)
    else .error (.unpredictable .msrChangesT) := by
  simp only [← State.modeField_cpsrMask_ne_zero]
  rfl

/-- A write of CPSR leaves the new word, switches the bank with the mode, and changes nothing else. -/
theorem State.putCpsr_frame (new : Word) (s : State) :
    (s.putCpsr new).cpu.cpsr = new ∧ SwitchesBank s (s.putCpsr new) ∧
      (s.putCpsr new).cpu.pendingPC = s.cpu.pendingPC ∧ KeepsBlock s (s.putCpsr new) ∧ KeepsBus s (s.putCpsr new) := by
  refine ⟨?_, SwitchesBank.putCpsr new s, ?_⟩ <;> unfold State.putCpsr <;> split
  · rw [State.cpu_setCpu]
  · rw [State.cpu_setCpu, Cpu.cpsr_switchTo]
  · exact ⟨by rw [State.cpu_setCpu], KeepsBlock.setCpu _ s, KeepsBus.setCpu _ s⟩
  · exact ⟨by rw [State.cpu_setCpu, Cpu.pendingPC_switchTo], KeepsBlock.setCpu _ s, KeepsBus.setCpu _ s⟩

/-- Settles O29: the word is the masked one; it is refused by the checks, or written with a switch of the bank. -/
theorem writeCpsr : Obligations.WriteCpsr := by
  intro c mask o s new hnew i writesMode
  have hcheck := State.cpsrCheck_msr (msrOperand o s) mask s
  rw [State.cpsrNew_of_bits hnew] at hcheck
  have hexec (ho : o ≠ .inr 15#4) : exec i s = match s.cpsrCheck (msrOperand o s) mask .msr with
    | .error why => .next (s.halt why)
    | .ok new => .next (s.putCpsr new) := exec_msrInstr ho c .cpsr mask s
  rw [hcheck] at hexec
  refine ⟨fun ho => ?_, fun ho hT => ?_, fun ho hT hw hmode => ?_, fun ho hT hmode => ?_⟩
  · subst ho
    exact exec_msrInstr_pc c .cpsr mask s
  · rw [hexec ho, if_neg hT]
  · rw [hexec ho, if_pos hT, if_pos ⟨hw, hmode⟩]
  · rw [if_pos hT, if_neg fun h => by simp [hmode h.1] at h] at hexec
    exact ⟨_, hexec ho, s.putCpsr_frame new⟩

end Sys2Proof.Machine
end

section
/-! SUPPORT. CLZ and the saturating additions and subtractions (R560 to R565). -/

namespace Sys2Proof.Machine

/-! ### Leading zeros (R560) -/

/-- The number of leading zeros is at most 32; the bits above its place are 0, and below 32 the bit there is 1. -/
theorem leadingZeros_spec (w : Word) : leadingZeros w ≤ 32 ∧ (∀ k < leadingZeros w, w.getLsbD (31 - k) = false) ∧
    (leadingZeros w < 32 → w.getLsbD (31 - leadingZeros w) = true) := by
  unfold leadingZeros
  cases h : (List.range 32).find? fun k => bit (31 - k) w with
  | none =>
    rw [List.find?_range_eq_none] at h
    exact ⟨le_refl 32, fun k hk => by simpa [bit] using h k hk, fun hlt => absurd hlt (lt_irrefl 32)⟩
  | some n =>
    obtain ⟨hbit, hmem, habove⟩ := List.find?_range_eq_some.1 h
    exact ⟨(List.mem_range.1 hmem).le, fun k hk => by simpa [bit] using habove k hk, fun _ => hbit⟩

/-! ### Saturation (R561) -/

/-- A saturated integer is a signed word. -/
theorem toInt_saturated (i : Int) : (BitVec.ofInt 32 (saturated i)).toInt = saturated i :=
  BitVec.toInt_ofInt_eq_self (by decide) (by unfold saturated; omega) (by unfold saturated; omega)

/-- `SignedSat32` gives the saturated integer, and whether it is another one. -/
theorem signedSat32_eq (i : Int) : signedSat32 i = (BitVec.ofInt 32 (saturated i), saturated i != i) := by
  have hsat {x : Int} (hx : saturated i = x) (hne : x ≠ i) :
      (BitVec.ofInt 32 x, true) = (BitVec.ofInt 32 (saturated i), saturated i != i) := by
    rw [hx, bne_iff_ne.2 hne]
  unfold signedSat32
  split
  · next h =>
    have h : 2147483647 < i := h
    exact hsat (by unfold saturated; omega) h.ne
  split
  · next h =>
    have h : i < -2147483648 := h
    exact hsat (by unfold saturated; omega) h.ne'
  · next hmax hmin =>
    have hmax : ¬2147483647 < i := hmax
    have hmin : ¬i < -2147483648 := hmin
    have hsame : saturated i = i := by unfold saturated; omega
    rw [hsame, bne_self_eq_false]

/-! ### The instructions -/

/-- The check of the register fields passes when none is r15. -/
theorem firstApplying_pcOperandCheck {used : List RegNo} (h : 15#4 ∉ used) :
    firstApplying (pcOperandCheck used) = none := by
  simpa [pcOperandCheck, firstApplying] using h

/-- The check of the register fields raises PCOperand when one is r15 (R560, R561). -/
theorem State.guarded_pcOperand {used : List RegNo} (h : 15#4 ∈ used) (r : Result) (s : State) :
    s.guarded (pcOperandCheck used) r = .next (s.halt (.unpredictable .pcOperand)) :=
  State.guarded_raise (by simpa [pcOperandCheck, firstApplying] using h)

/-- A saturating instruction is the check of its register fields, then the write of its saturated
result (R562 to R565). -/
theorem exec_satInstr (op : SatOp) (c : Cond) (rn rd rm : RegNo) (s : State) : exec (satInstr op c rn rd rm) s =
    s.guarded (pcOperandCheck [rn, rd, rm])
      (s.saturateWrite rd (BitVec.ofInt 32 (saturated (op.exact (s.reg rm).toInt (s.reg rn).toInt)))
        (op.saturates (s.reg rm).toInt (s.reg rn).toInt)) := by
  cases op with
  | qadd => change execQadd rn rd rm s = _; rw [execQadd, signedSat32_eq]; rfl
  | qsub => change execQsub rn rd rm s = _; rw [execQsub, signedSat32_eq]; rfl
  | qdadd =>
    change execQdadd rn rd rm s = _
    rw [execQdadd, doubled, signedSat32_eq, signedSat32_eq, toInt_saturated]; rfl
  | qdsub =>
    change execQdsub rn rd rm s = _
    rw [execQdsub, doubled, signedSat32_eq, signedSat32_eq, toInt_saturated]; rfl

/-- Settles O32: CLZ by its leading bits; the saturating instructions by their exact result and the sticky Q. -/
theorem clzAndSaturating : Obligations.ClzAndSaturating := by
  intro op c rn rd rm s i m n
  refine ⟨fun h => ?_, fun hd hm => ?_, fun h => ?_, fun hn hd hm => ?_⟩
  · exact State.guarded_pcOperand (by simpa [eq_comm] using h) _ s
  · obtain ⟨hle, hzeros⟩ := leadingZeros_spec (s.reg rm)
    refine ⟨_, State.guarded_pass (firstApplying_pcOperandCheck (by simp [hd.symm, hm.symm])), Keeps.setReg rd _ s, ?_⟩
    rw [State.reg_setReg hd, BitVec.toNat_ofNat, Nat.mod_eq_of_lt (by omega)]
    exact ⟨hle, hzeros⟩
  · rw [exec_satInstr]
    exact State.guarded_pcOperand (by simpa [eq_comm] using h) _ s
  · rw [exec_satInstr, State.guarded_pass (firstApplying_pcOperandCheck (by simp [hn.symm, hd.symm, hm.symm]))]
    obtain ⟨hreg, hq, hkeeps⟩ :=
      State.setReg_stickQ hd (BitVec.ofInt 32 (saturated (op.exact m n))) (op.saturates m n) s
    exact ⟨_, rfl, by rw [hreg, toInt_saturated], hq, hkeeps⟩

end Sys2Proof.Machine
end

section
/-! SUPPORT. Exceptions (R590, R591, R600, R630, R640 to R643): what an entry makes of the CPU, and when SWI, BKPT, an
UNDEFINED word or an interrupt enters one. -/

namespace Sys2Proof.Machine

open Sys2Proof.Config

/-! ### The new CPSR (R640) -/

/-- The mode just set. -/
theorem modeField_withMode (m : BitVec 5) (w : Word) : modeField (withMode m w) = m := by
  have hmask : bits 0 5 (w &&& 0xFFFFFFE0#32) = 0#5 := by
    rw [bits, BitVec.extractLsb'_and]
    exact BitVec.and_zero
  rw [modeField, withMode, bits_or, bits_field_self 0 (by decide), hmask, BitVec.zero_or]

/-- Replacing the mode keeps F. -/
theorem flagF_withMode (m : BitVec 5) (w : Word) : flagF (withMode m w) = flagF w := by
  rw [flagF, withMode, bit_or, bit_field 6 0 (by decide), BitVec.getLsbD_of_ge m 6 (by decide)]
  simp [flagF, bit]

/-- The mode of an entry. -/
theorem Exception.modeField_cpsr (k : Exception) (w : Word) : modeField (k.cpsr w) = k.mode.bits := by
  have hlow : modeField (setBit 7 true (setBit 5 false (withMode k.mode.bits w))) = k.mode.bits := by
    rw [modeField_setBit (by decide), modeField_setBit (by decide), modeField_withMode]
  cases k with
  | fiq => exact (modeField_setBit (by decide) true _).trans hlow
  | _ => exact hlow

/-- An entry disables IRQ. -/
theorem Exception.flagI_cpsr (k : Exception) (w : Word) : flagI (k.cpsr w) = true := by
  cases k <;> simp [flagI, Exception.cpsr, bit_setBit_ne]

/-- An entry of FIQ disables FIQ, the others keep F. -/
theorem Exception.flagF_cpsr (k : Exception) (w : Word) : flagF (k.cpsr w) = (k == .fiq || flagF w) := by
  have hlow : flagF (setBit 7 true (setBit 5 false (withMode k.mode.bits w))) = flagF w := by
    rw [flagF, bit_setBit_ne (by decide) (by decide), bit_setBit_ne (by decide) (by decide)]
    exact flagF_withMode _ w
  cases k with
  | fiq => exact bit_setBit_self 6 (by decide) true _
  | _ => exact hlow

/-! ### Entry (R640) -/

/-- The mode of an entry has an SPSR. -/
theorem Exception.hasSpsr_mode (k : Exception) : hasSpsr k.mode.bits = true := by
  cases k <;> rfl

section

variable (c : Cpu) (v w : Word) (p : Option Word)

/-- The writes of SPSR, r14 and the pending target change no other register of any mode (R39). -/
theorem Cpu.view_entered {m : BitVec 5} {i : Fin 15}
    (h : ¬(i.val = 14 ∧ physBank m 14 = physBank (modeField c.cpsr) 14)) :
    { c with spsr := w, r := c.r.set 14 v, pendingPC := p }.view m i = c.view m i := by
  unfold Cpu.view
  split
  · next hphys =>
    have hi : 14 ≠ i.val := fun hi => h ⟨hi.symm, by rwa [← hi] at hphys⟩
    exact Vector.getElem_set_ne (by decide) _ hi
  · rfl

/-- The writes of SPSR, r14 and the pending target change the SPSR of no mode with another bank (R39). -/
theorem Cpu.spsrView_entered {m : BitVec 5} (h : bankOf m ≠ bankOf (modeField c.cpsr)) :
    { c with spsr := w, r := c.r.set 14 v, pendingPC := p }.spsrView m = c.spsrView m := by
  unfold Cpu.spsrView
  rw [if_neg h, if_neg h]

end

/-- What an exception entry makes of the CPU: the entry of R640 at the mode, the offset and the link of its kind. -/
theorem State.enterException_enters (k : Exception) (s : State) :
    Enters k.mode.bits k.vector (k.link s.cpu.pc) (k == .fiq) s (s.enterException k) ∧
      KeepsBlock s (s.enterException k) ∧ KeepsBus s (s.enterException k) := by
  refine ⟨?_, KeepsBlock.setCpu _ s, KeepsBus.setCpu _ s⟩
  have hcpsr := Cpu.cpsr_switchTo s.cpu (k.cpsr s.cpu.cpsr)
  have hview (m : BitVec 5) (i : Fin 15) := Cpu.view_switchTo m i s.cpu (k.cpsr s.cpu.cpsr)
  have hspsr (m : BitVec 5) := Cpu.spsrView_switchTo m s.cpu (k.cpsr s.cpu.cpsr)
  have hworks := Cpu.works_switchTo (k.cpsr s.cpu.cpsr) s.cpu
  unfold Enters State.reg
  rw [State.enterException, State.cpu_setCpu]
  generalize s.cpu.switchTo (k.cpsr s.cpu.cpsr) = c at hcpsr hview hspsr hworks ⊢
  obtain ⟨hcfg, hbus, hpc, hnext, hr15, htick, hstarted, hhalted, hirq, hfiq⟩ :=
    hworks.setR (i := 14) (by decide) (k.link s.cpu.pc)
  have hmode : modeField c.cpsr = k.mode.bits := by rw [hcpsr, k.modeField_cpsr]
  refine ⟨hmode, ?_, ?_, ?_, ?_, ?_, Vector.getElem_set_self _, rfl, fun m i h => ?_, fun m h => ?_,
    hr15, hcfg, hbus, hpc, hnext, htick, hstarted, hhalted, hirq, hfiq⟩
  · rw [hcpsr, k.flagT_cpsr]
  · rw [hcpsr, k.flagI_cpsr]
  · rw [hcpsr, k.flagF_cpsr]
  · rw [hcpsr, k.cpsr_and]
  · rw [Cpu.spsrView, hmode, if_pos k.hasSpsr_mode, if_pos rfl]
  · rw [← hmode] at h
    rw [← hview]
    exact c.view_entered _ _ _ h
  · rw [← hmode] at h
    rw [← hspsr]
    exact c.spsrView_entered _ _ _ h

/-! ### SWI, BKPT and UNDEFINED words (R590, R591, R600) -/

section

variable {s : State}

/-- Under EXC_MODEL = unsupported the exception is refused (R630). -/
theorem State.exceptionOr_refused (h : s.params.excModel = .unsupported) (k : Exception) (why : UnsupportedReason) :
    s.exceptionOr k why = .next (s.halt (.unsupported why)) := by
  rw [State.exceptionOr, h]
  rfl

/-- Under EXC_MODEL = architectural the exception is entered (R640). -/
theorem State.exceptionOr_entered (h : s.params.excModel = .architectural) (k : Exception) (why : UnsupportedReason) :
    s.exceptionOr k why = .next (s.enterException k) := by
  rw [State.exceptionOr, h]

/-- The UNDEFINED rows with their word (R195, R600). -/
theorem exec_undefinedRow {i : Instr} {w : Word} (h : undefinedRow i = some w) (s : State) :
    exec i s = s.exceptionOr .undefined (.undefined w) := by
  unfold undefinedRow at h
  split at h <;> cases h <;> rfl

end

/-- Settles O33: each row is its exception, refused; BKPT first checks its condition. -/
theorem exceptionsRefused : Obligations.ExceptionsRefused := by
  intro s
  refine ⟨fun c hi lo hc => State.guarded_raise (if_pos (bne_iff_ne.2 hc)), fun hx =>
    ⟨fun c imm => State.exceptionOr_refused hx _ _, fun hi lo => State.exceptionOr_refused hx _ _, fun i w hi => ?_⟩⟩
  rw [exec_undefinedRow hi, State.exceptionOr_refused hx]

/-- Settles O34: each row is its exception, entered. -/
theorem exceptionsEntered : Obligations.ExceptionsEntered := by
  intro s hx enters
  have henters {i : Instr} {k : Exception} {why : UnsupportedReason} (hexec : exec i s = s.exceptionOr k why)
      (hlink : k.link s.cpu.pc = s.cpu.pc + 4#32) (hfiq : (k == .fiq) = false) : enters i k.mode k.vector := by
    have hentry := s.enterException_enters k
    rw [hlink, hfiq] at hentry
    exact ⟨_, hexec.trans (State.exceptionOr_entered hx k why), hentry⟩
  exact ⟨fun c imm => henters (k := .swi) rfl rfl rfl, fun hi lo => henters (k := .prefetchAbort) rfl rfl rfl,
    fun i w hi => henters (exec_undefinedRow hi s) rfl rfl⟩

/-! ### Interrupts (R642, R643) -/

section

variable (s : State) (id : CpuId)

/-- The stepping CPU at the start of its step (R230). -/
theorem State.cpu_clearPending_select : (s.select id).clearPending.cpu = { s.cpuOf id with pendingPC := none } := by
  rw [State.clearPending, State.cpu_setCpu, State.cpu_select]

/-- The parameters at the start of a step. -/
theorem State.params_clearPending_select : (s.select id).clearPending.params = s.params :=
  State.setCpu_params _ _

end

/-- Settles O40: the levels and the masks decide what interrupt is due; it is entered, or the step fetches. -/
theorem interruptEntry : Obligations.InterruptEntry := by
  intro s id hs hturn s0 c noFiq noIrq takes fetches
  have hcpu : s0.cpu = { c with pendingPC := none } := s.cpu_clearPending_select id
  have hparams : s0.params = s.params := s.params_clearPending_select id
  have hfetches (h : s0.interruptDue = none) : fetches := ⟨h, fun word s1 hf => step_of_fetch hs hturn h hf⟩
  have htakes {k : Exception} (h : s0.interruptDue = some k) (hlink : k.link c.pc = c.pc + 4#32) :
      takes k.mode k.vector (k == .fiq) := by
    have hentry := s0.enterException_enters k
    have hpc : s0.cpu.pc = c.pc := by rw [hcpu]
    rw [hpc, hlink] at hentry
    have hdivider : (s.select id).divider = c.cfg.clockDivider := by rw [State.divider, State.cpu_select]
    refine ⟨_, ?_, hentry⟩
    rw [step_of_turn hs hturn, ← hdivider]
    simp only [State.cpuStep, h, s0]
  have hmasked {level mask : Bool} (h : level = false ∨ mask = true) : (level && !mask) = false := by
    obtain h | h := h <;> simp [h]
  simp only [State.interruptDue, hparams, hcpu] at hfetches htakes
  refine ⟨fun hx => hfetches (by rw [hx]), fun hx hf hi => hfetches ?_, fun hx hf hm => htakes (k := .fiq) ?_ rfl,
    fun hx hf hi hm => htakes (k := .irq) ?_ rfl⟩
  · simp [hx, hmasked hf, hmasked hi]
  · simp [hx, hf, hm]
  · simp [hx, hmasked hf, hi, hm]

end Sys2Proof.Machine
end

section
/-! SUPPORT. The Clock under SCHEDULE = clock (R62, R670 to R678): whose turn it is, the turn of a master in a pass, the
end of a pass, and the advance of the Clock. -/

namespace Sys2Proof.Machine

open Sys2Proof.Config

/-! ### Turns (R670, R672) -/

section

variable {s : State} {goal : Int} {k : Nat} {reached : List Int}

/-- Under SCHEDULE = clock no CPU steps when it is no CPU's turn. -/
theorem State.turn_of_no_cpu (hx : s.params.schedule = .clock) (h : ∀ id, s.clock.current ≠ some (.cpu id)) :
    s.turn = none := by
  simp only [State.turn, hx]
  unfold State.clockTurn
  split
  · next id hid => exact absurd hid (h id)
  · rfl

/-- The master whose turn it is in a pass. -/
theorem Clock.current_pass {c : Clock} (h : c.phase = .pass goal k reached) : c.current = c.masters[k]? := by
  simp only [Clock.current, h]

/-- On a CPU's turn in a pass it steps while it is started, not halted and below the target (R670). -/
theorem State.turn_of_cpu (hx : s.params.schedule = .clock) (hphase : s.clock.phase = .pass goal k reached) {id : CpuId}
    (hm : s.clock.masters[k]? = some (.cpu id)) :
    s.turn = if (s.cpuOf id).runsTo s.clock.targetTick then some id else none := by
  simp only [State.turn, hx, State.clockTurn, Clock.current_pass hphase, hm]

/-- A step in a pass in which no CPU steps is a turn of the pass (R671). -/
theorem step_passTurn (hs : s.session = none) (hx : s.params.schedule = .clock)
    (hphase : s.clock.phase = .pass goal k reached) (hturn : s.turn = none) :
    step s = .next (s.passTurn goal k reached) := by
  rw [step_of_no_turn hs hturn]
  simp only [State.clockStep, hx, hphase]

/-- On the turn of a CPU that does not step its tick is returned (R670). -/
theorem step_of_cpu_done (hs : s.session = none) (hx : s.params.schedule = .clock)
    (hphase : s.clock.phase = .pass goal k reached) {id : CpuId} (hm : s.clock.masters[k]? = some (.cpu id))
    (hdone : (s.cpuOf id).runsTo s.clock.targetTick = false) :
    step s = .next { s.putCpu id { s.cpuOf id with tick := (s.cpuOf id).idleTick s.clock.targetTick } with
      clock := s.clock.returnedTick goal k reached ((s.cpuOf id).idleTick s.clock.targetTick) } := by
  have hturn : s.turn = none := (State.turn_of_cpu hx hphase hm).trans (if_neg (by rw [hdone]; decide))
  rw [step_passTurn hs hx hphase hturn]
  simp only [State.passTurn, hm]

end

/-- Settles O42: a CPU steps or is done; a device reaches its free tick. -/
theorem clockTurn : Obligations.ClockTurn := by
  intro s id name x goal k reached hs hx hphase c t
  refine ⟨fun hm => ⟨fun hstarted hhalted hlt => ?_, fun hstarted hhalted hle => ?_, fun hidle => ?_⟩, fun hm => ?_⟩
  · have hruns : c.runsTo t = true := by simp [Cpu.runsTo, Cpu.alive_iff, hstarted, hhalted, hlt]
    have hselect : s.select id = { s with cur := id } := by rw [State.select, hx, if_neg (by decide)]
    rw [step_of_turn hs ((State.turn_of_cpu hx hphase hm).trans (if_pos hruns)), hselect]
  · have hdone : c.runsTo t = false := by simp [Cpu.runsTo, hle]
    have htick : c.idleTick t = c.tick := if_pos ((Cpu.alive_iff c).2 ⟨hstarted, hhalted⟩)
    rw [step_of_cpu_done hs hx hphase hm hdone, htick]
    cases id <;> rfl
  · have halive : ¬c.alive = true := by
      rw [Cpu.alive_iff, not_and_or, Bool.not_eq_true]
      exact hidle
    have hdone : c.runsTo t = false := by simp [Cpu.runsTo, halive]
    have htick : c.idleTick t = max c.tick t := if_neg halive
    rw [step_of_cpu_done hs hx hphase hm hdone, htick]
    rfl
  · have hturn : s.turn = none := State.turn_of_no_cpu hx fun k => by rw [Clock.current_pass hphase, hm]; nofun
    refine ⟨deviceTick name s.draws x t, le_deviceTick .., fun hlt => lt_deviceTick _ _ hlt, ?_⟩
    rw [step_passTurn hs hx hphase hturn]
    simp only [State.passTurn, hm]
    rfl

/-! ### The call and the end of a pass (R671) -/

/-- The least of the ticks returned in a pass. -/
theorem minReached_spec (goal : Int) {reached : List Int} (h : reached ≠ []) :
    minReached goal reached ∈ reached ∧ ∀ x ∈ reached, minReached goal reached ≤ x := by
  cases reached with
  | nil => exact absurd rfl h
  | cons x xs => exact List.min?_eq_some_iff.1 List.min?_cons'

section

variable {c : Clock} {goal : Int} {reached : List Int}

/-- An under-run: the pass runs again with the least tick. -/
theorem Clock.endPass_underrun (h : ∃ x ∈ reached, x < c.targetTick) : c.endPass goal reached =
    { c with
      executedTick := minReached goal reached, targetTick := minReached goal reached, phase := .pass goal 0 [] } :=
  if_pos (by simpa using h)

/-- No under-run and the goal not reached: the pass runs again with the goal. -/
theorem Clock.endPass_below (h : ∀ x ∈ reached, c.targetTick ≤ x) (hlt : minReached goal reached < goal) :
    c.endPass goal reached =
      { c with executedTick := minReached goal reached, targetTick := goal, phase := .pass goal 0 [] } :=
  (if_neg (by simpa using h)).trans (if_pos hlt)

/-- No under-run and the goal reached: the slaves run and the call returns. -/
theorem Clock.endPass_done (h : ∀ x ∈ reached, c.targetTick ≤ x) (hle : goal ≤ minReached goal reached) :
    c.endPass goal reached =
      { c with
        executedTick := minReached goal reached
        slaves := c.slaves.map fun x => { x with tick := minReached goal reached }
        phase := .returned goal } :=
  (if_neg (by simpa using h)).trans (if_neg (not_lt.2 hle))

/-- The end of a pass sets `executedTick` to the least tick returned and keeps the masters. -/
theorem Clock.endPass_executedTick (goal : Int) (reached : List Int) (c : Clock) :
    (c.endPass goal reached).executedTick = minReached goal reached ∧ (c.endPass goal reached).masters = c.masters := by
  by_cases hunder : ∃ x ∈ reached, x < c.targetTick
  · rw [Clock.endPass_underrun hunder]; exact ⟨rfl, rfl⟩
  have hfull : ∀ x ∈ reached, c.targetTick ≤ x := by simpa using hunder
  obtain hlt | hle := lt_or_ge (minReached goal reached) goal
  · rw [Clock.endPass_below hfull hlt]; exact ⟨rfl, rfl⟩
  · rw [Clock.endPass_done hfull hle]; exact ⟨rfl, rfl⟩

end

/-- Settles O43: the call by `executedTick`; the end of a pass by the under-run and by the goal. -/
theorem clockCallAndEndOfPass : Obligations.ClockCallAndEndOfPass := by
  intro s goal k reached hs hx
  have hidle (hphase : s.clock.phase = .idle) :
      step s = .next { s with clock := s.clock.call s.params.ticksPerFrame } := by
    have hturn : s.turn = none := State.turn_of_no_cpu hx fun id => by simp [Clock.current, hphase]
    rw [step_of_no_turn hs hturn]
    simp only [State.clockStep, hx, hphase]
  refine ⟨fun hphase hlt => ?_, fun hphase hle => ?_, fun hphase hm => ?_⟩
  · rw [hidle hphase, Clock.call, if_pos hlt]
  · rw [hidle hphase, Clock.call, if_neg (not_lt.2 hle)]; rfl
  · have hturn : s.turn = none := State.turn_of_no_cpu hx fun id => by rw [Clock.current_pass hphase, hm]; nofun
    have hstep : step s = .next { s with clock := s.clock.endPass goal reached } := by
      rw [step_passTurn hs hx hphase hturn]
      simp only [State.passTurn, hm]
    obtain ⟨htick, hmasters⟩ := s.clock.endPass_executedTick goal reached
    refine ⟨_, hstep, rfl, hmasters, fun hnil => ?_, fun hne => ?_, fun h => ?_, fun h hlt => ?_, fun h hle => ?_⟩
    · rw [htick, hnil]; rfl
    · rw [htick]; exact minReached_spec goal hne
    · rw [Clock.endPass_underrun h]; exact ⟨rfl, rfl, rfl⟩
    · rw [htick] at hlt
      rw [Clock.endPass_below h hlt]; exact ⟨rfl, rfl, rfl⟩
    · rw [htick] at hle
      rw [Clock.endPass_done h hle]; exact ⟨rfl, rfl, rfl⟩

/-! ### The advance (R676) -/

/-- The rebase of the masters: the tick of a CPU falls once for each of its entries (log 30). -/
theorem foldl_rebaseMaster (d : Int) (ms : List Master) (s : State) : ms.foldl (State.rebaseMaster d) s =
    { s with
      arm7 := { s.arm7 with tick := s.arm7.tick - d * ms.count (.cpu .arm7) }
      arm9 := { s.arm9 with tick := s.arm9.tick - d * ms.count (.cpu .arm9) } } := by
  induction ms generalizing s with
  | nil => simp
  | cons m ms ih =>
    rw [List.foldl_cons, ih]
    cases m with
    | device name x => simp [State.rebaseMaster]
    | cpu id => cases id <;> simp [State.rebaseMaster, State.putCpu, State.cpuOf] <;> ring

/-- A CPU registered at most once falls by the frame when it is registered, else not at all. -/
theorem sub_mul_count (d tick : Int) {m : Master} {ms : List Master} (h : (ms.filter fun x => x = m).length ≤ 1) :
    tick - d * ms.count m = if m ∈ ms then tick - d else tick := by
  have hcount : ms.count m ≤ 1 := by rwa [List.count_eq_length_filter]
  split
  · next hmem =>
    have hpos := List.count_pos_iff.2 hmem
    have hone : ms.count m = 1 := by omega
    rw [hone]; simp
  · next hmem => rw [List.count_eq_zero_of_not_mem hmem]; simp

/-- Settles O44: the rebase of the masters, then that of the Clock. -/
theorem clockAdvance : Obligations.ClockAdvance := by
  intro s goal hs hx hphase h7 h9 tick
  have hturn : s.turn = none := State.turn_of_no_cpu hx fun id => by simp [Clock.current, hphase]
  rw [step_of_no_turn hs hturn]
  simp only [State.clockStep, hx, hphase]
  rw [State.clockAdvance, foldl_rebaseMaster, sub_mul_count goal _ h7, sub_mul_count goal _ h9]
  rfl

end Sys2Proof.Machine
end

section
/-! SUPPORT. `reset()` of a CPU (R64, R700, R701): the seven saves zero every slot of the banks. -/

namespace Sys2Proof.Machine

open Sys2Proof.Config

/-- The banks with one bank zeroed; `psr` is the CPSR that a save of the USR bank keeps (R36). -/
def Banks.zeroed (b : BankId) (psr : Word) (x : Banks) : Banks :=
  match b with
  | .usr => { x with usr := { Banks.reset.usr with cpsr := psr } }
  | .fiq => { x with fiq := Banks.reset.fiq }
  | .irq => { x with irq := Banks.reset.irq }
  | .svc => { x with svc := Banks.reset.svc }
  | .abt => { x with abt := Banks.reset.abt }
  | .und => { x with und := Banks.reset.und }

section

variable {c : Cpu} (hr : c.r = Vector.replicate 16 0#32) (hspsr : c.spsr = 0#32)
include hr hspsr

/-- A save of zeroed registers zeroes the mode's bank, once the USR slots are zero (R36). -/
theorem Cpu.saveBank_zeroed {m : BitVec 5} (hu : bankOf m = .usr ∨ c.banks.usr.r = Banks.reset.usr.r) :
    c.saveBank m = { c with banks := c.banks.zeroed (bankOf m) c.cpsr } := by
  have hslots : (Vector.ofFn fun i : Fin 15 => if physBank m i.val = .usr then c.r[i.val] else c.banks.usr.r[i.val]) =
      Banks.reset.usr.r := by
    apply Vector.ext
    intro i hi
    obtain h | h := hu
    · have hslot : physBank m i = .usr := by unfold physBank; rw [h]
      simp [hr, hslot, Banks.reset]
    · simp [hr, h, Banks.reset]
  have hfiq : (Vector.ofFn fun i : Fin 7 => c.r[i.val + 8]) = Banks.reset.fiq.r := by
    apply Vector.ext
    intro i hi
    simp [hr, Banks.reset]
  have hpriv (mine : Bool) (old : PrivBank) : c.savePriv mine old = if mine then Banks.reset.irq else old := by
    simp [Cpu.savePriv, hr, hspsr, Banks.reset]
  simp only [Cpu.saveBank, hslots, hfiq, hspsr, hpriv]
  cases hb : bankOf m with
  | usr => rfl
  | fiq | irq | svc | abt | und =>
    rw [← hu.resolve_left (by rw [hb]; decide)]
    rfl

/-- The saves of zeroed registers zero the banks of their modes. -/
theorem Cpu.saves_zeroed (ms : List Mode) (hu : c.banks.usr.r = Banks.reset.usr.r) :
    ms.foldl (fun x m => x.saveBank m.bits) c =
      { c with banks := ms.foldl (fun x m => x.zeroed (bankOf m.bits) c.cpsr) c.banks } := by
  induction ms generalizing c with
  | nil => rfl
  | cons m ms ih =>
    rw [List.foldl_cons, Cpu.saveBank_zeroed hr hspsr (.inr hu)]
    refine ih hr hspsr ?_
    cases bankOf m.bits with
    | usr => rfl
    | fiq | irq | svc | abt | und => exact hu

/-- The seven saves of zeroed registers zero every bank; the CPSR shadow of the USR bank is the CPSR (R700). -/
theorem Cpu.saves_resetModes : resetModes.foldl (fun x m => x.saveBank m.bits) c =
    { c with banks := { Banks.reset with usr := { Banks.reset.usr with cpsr := c.cpsr } } } := by
  rw [resetModes, List.foldl_cons, Cpu.saveBank_zeroed hr hspsr (.inl rfl)]
  exact Cpu.saves_zeroed (c := { c with banks := c.banks.zeroed .usr c.cpsr }) hr hspsr _ rfl

end

/-- What `reset()` leaves of a CPU (R700). -/
theorem Cpu.doReset_eq (w : Word) (c : Cpu) : c.doReset w = { c with
    r := Vector.replicate 16 0#32, cpsr := w &&& psrMask c.cfg.variant, spsr := 0#32, pc := 0#32, pcNext := 0#32,
    pendingPC := none, started := false, halted := none
    banks := { Banks.reset with usr := { Banks.reset.usr with cpsr := w &&& psrMask c.cfg.variant } } } :=
  congrArg (fun x : Cpu => { x with pc := 0#32, pcNext := 0#32, pendingPC := none, started := false, halted := none })
    (Cpu.saves_resetModes rfl rfl)

/-- Settles O46: the reset CPU by its equation, which a second reset meets again. -/
theorem resetOfACpu : Obligations.ResetOfACpu := by
  intro id s c t psr
  have ht : t = s.putCpu id (c.doReset s.params.resetCpsr) := rfl
  have hcpu : t.cpuOf id = c.doReset s.params.resetCpsr := by rw [ht, State.cpuOf_putCpu]
  refine ⟨hcpu.trans (Cpu.doReset_eq _ c), ht.trans (by rw [hcpu]), ?_⟩
  have hagain : (c.doReset s.params.resetCpsr).doReset s.params.resetCpsr = c.doReset s.params.resetCpsr := by
    simp only [Cpu.doReset_eq]
  rw [State.resetCpu, hcpu, ht, State.putCpu_params, hagain]
  cases id <;> rfl

end Sys2Proof.Machine
end
